-- ==== Sys2Proof/Word.lean ====
section
/-! DEFINITION. The data elements of the NibbleCodec block and their widths (spec/00_scope.md R13):
every data element is an 8-bit byte and a device ID is a 4-bit value. Values are unsigned (R15); bit 0
is the least significant bit (R14), which is `BitVec`'s own numbering. -/

namespace Sys2Proof

/-- One data element of the block: an 8-bit byte (R13). -/
abbrev Byte := BitVec 8

/-- A device ID: a 4-bit hardware address (R13, R26). -/
abbrev DeviceId := BitVec 4

end Sys2Proof
end

