-- ==== Sys2Proof/Syntax.lean ====
section
/-! DEFINITION. The instructions of the block: the seven operations of spec/opcode_table.json
(spec/00_scope.md R3, spec/30_encoding.md R55). The command word holds no operand (R54): operands are
registers, so no constructor has an argument. -/

namespace Sys2Proof

/-- The seven operations, one for each row of the operation map (R55). -/
inductive Instr where
  /-- ESCAPE, command 0x01 (R70). -/
  | escape
  /-- UNESCAPE, command 0x02 (R72). -/
  | unescape
  /-- FRAME, command 0x11 (R83). -/
  | frame
  /-- REQUEST_FRAME, command 0x12 (R85). -/
  | requestFrame
  /-- CLASSIFY, command 0x13 (R87). -/
  | classify
  /-- STEP_DECODE, command 0x21 (R91). -/
  | stepDecode
  /-- PATTERN_DECODE, command 0x22 (R93). -/
  | patternDecode
deriving DecidableEq, Repr

end Sys2Proof
end

