-- ==== Sys2Proof/Decode.lean ====
section
/-! DEFINITION. The command word (spec/30_encoding.md R54 to R56): the decoder, total on every 8-bit
value and rejecting the reserved ones by name, and after it the encoder. -/

namespace Sys2Proof

/-- Why a command word selects no operation (R54, R56). -/
inductive DecodeReject where
  /-- UNIT 0x3..0xF is reserved. -/
  | reservedUnit (unit : BitVec 4)
  /-- The unit exists and this FUNC of it is reserved. -/
  | reservedFunc (unit func : BitVec 4)
deriving DecidableEq, Repr

/-- `UNIT` = CMD[7:4] (R54). -/
def cmdUnit (c : Byte) : BitVec 4 := c.extractLsb' 4 4

/-- `FUNC` = CMD[3:0] (R54). -/
def cmdFunc (c : Byte) : BitVec 4 := c.extractLsb' 0 4

/-- Functions of unit 0x0, NibbleCodec (R55). -/
def decodeNibbleCodec (func : BitVec 4) : Except DecodeReject Instr :=
  if func = 0x1#4 then .ok .escape
  else if func = 0x2#4 then .ok .unescape
  else .error (.reservedFunc 0x0#4 func)

/-- Functions of unit 0x1, SysexFramer (R55). -/
def decodeSysexFramer (func : BitVec 4) : Except DecodeReject Instr :=
  if func = 0x1#4 then .ok .frame
  else if func = 0x2#4 then .ok .requestFrame
  else if func = 0x3#4 then .ok .classify
  else .error (.reservedFunc 0x1#4 func)

/-- Functions of unit 0x2, PatternDecoder (R55). -/
def decodePatternDecoder (func : BitVec 4) : Except DecodeReject Instr :=
  if func = 0x1#4 then .ok .stepDecode
  else if func = 0x2#4 then .ok .patternDecode
  else .error (.reservedFunc 0x2#4 func)

/-- The operation a command word selects, or the name of why it is reserved (R54 to R56). -/
def decode (c : Byte) : Except DecodeReject Instr :=
  let unit := cmdUnit c
  let func := cmdFunc c
  if unit = 0x0#4 then decodeNibbleCodec func
  else if unit = 0x1#4 then decodeSysexFramer func
  else if unit = 0x2#4 then decodePatternDecoder func
  else .error (.reservedUnit unit)

/-- `UNIT` of each operation (R55). -/
def Instr.unit : Instr → BitVec 4
  | .escape => 0x0#4
  | .unescape => 0x0#4
  | .frame => 0x1#4
  | .requestFrame => 0x1#4
  | .classify => 0x1#4
  | .stepDecode => 0x2#4
  | .patternDecode => 0x2#4

/-- `FUNC` of each operation (R55). -/
def Instr.func : Instr → BitVec 4
  | .escape => 0x1#4
  | .unescape => 0x2#4
  | .frame => 0x1#4
  | .requestFrame => 0x2#4
  | .classify => 0x3#4
  | .stepDecode => 0x1#4
  | .patternDecode => 0x2#4

/-- The command word of an operation: UNIT above FUNC (R54). -/
def encode (i : Instr) : Byte := i.unit ++ i.func

/-- What the decoder reads from an instruction of `nbits` bits whose number is `w`: the command word is
its one byte (R54), the bits above `nbits` zero. -/
def decodeTableWord (nbits w : Nat) : Option Instr :=
  match decode (BitVec.ofNat 8 (w % 2 ^ nbits)) with
  | .ok i => some i
  | .error _ => none

end Sys2Proof
end

