-- ==== Sys2Proof/Machine/Basic.lean ====
section
/-! DEFINITION. The fixed constants of the block (spec/00_scope.md R11, hardwired by R35) and the
sequence primitives of its notation (R16). -/

namespace Sys2Proof.Machine

/-- `GROUP`: decoded bytes covered by one mask byte (R11). -/
@[simp] abbrev groupLen : Nat := 7

/-- `CHUNK`: escaped bytes per full chunk, one mask and seven payload bytes (R11). -/
@[simp] abbrev chunkLen : Nat := 8

/-- `HDR0`: envelope byte 0 (R11). -/
@[simp] abbrev hdr0 : Byte := 0x00#8

/-- `HDR1`: envelope byte 1 (R11). -/
@[simp] abbrev hdr1 : Byte := 0x20#8

/-- `MAGIC`: the prefix that follows the header in a request frame (R11). -/
@[simp] abbrev magic : List Byte := [0x30#8, 0x00#8, 0x00#8, 0x00#8]

/-- `SENTINEL`: the message type and message ID CLASSIFY returns for "not ours" (R11). -/
@[simp] abbrev sentinel : Byte × Byte := (0xFF#8, 0xFF#8)

/-- `MIN_CLASSIFY_LEN`: CLASSIFY needs more than 6 data bytes (R11). -/
@[simp] abbrev minClassifyLen : Nat := 7

/-- `PATTERN_LEN`: length of a decoded pattern payload (R11). -/
@[simp] abbrev patternLen : Nat := 889

/-- `PATTERN_GUARD`, byte 0 (R11). -/
@[simp] abbrev patternGuard0 : Byte := 0x00#8

/-- `PATTERN_GUARD`, byte 1 (R11). -/
@[simp] abbrev patternGuard1 : Byte := 0x08#8

/-- `TRACKS`: tracks in a pattern (R11). -/
@[simp] abbrev tracks : Nat := 12

/-- `STEPS`: steps per track (R11). -/
@[simp] abbrev steps : Nat := 64

/-- `TRACK_BASE`: offset of track 0 step 0 (R11). -/
@[simp] abbrev trackBase : Nat := 2

/-- `SCALAR_BASE`: the first scalar parameter offset (R11). -/
@[simp] abbrev scalarBase : Nat := 804

/-- `ceil_div(n, d)`: the least `q` with `q*d >= n`, for `d > 0` (R16). -/
def ceilDiv (n d : Nat) : Nat := (n + d - 1) / d

/-- `s[a..b)`: the slice of indices `a` up to but not including `b`, clamped to `len(s)` (R16). -/
def slice {α : Type} (s : List α) (a b : Nat) : List α := (s.take b).drop a

end Sys2Proof.Machine
end

