-- ==== Sys2Proof/Config.lean ====
section
/-! DEFINITION. What a build of the block fixes and the source leaves open (spec/00_scope.md R12;
spec/92_eei_decisions.md D6, D7, D13, D14): each is an uninterpreted constant, so a claim holds whatever
its value. The table type of `P_SCALAR_LAYOUT` (spec/42_pattern_decoder.md R95) stands here with it. -/

namespace Sys2Proof

/-- The eleven scalar fields of a pattern, in the source's order and by §4.4's names (R32;
spec/90_conflicts.md C3: `filterEnable` and `filterAutomation` are §3's `filterOnOff` and
`filterAutomationOnOff`). -/
inductive ScalarField where
  | tempo | swing | probability | flamLevel | filterMode | filterEnable | filterAutomation
  | filterSteps | polymeterOnOff | stepSize | autoAdvanceOnOff
deriving DecidableEq, Repr

/-- The eleven scalar fields as a list, in the source's order (R32). -/
def ScalarField.all : List ScalarField :=
  [.tempo, .swing, .probability, .flamLevel, .filterMode, .filterEnable, .filterAutomation,
    .filterSteps, .polymeterOnOff, .stepSize, .autoAdvanceOnOff]

/-- The four scalar fields the source marks "(bool)" (R96). -/
inductive BoolField where
  | filterEnable | filterAutomation | polymeterOnOff | autoAdvanceOnOff
deriving DecidableEq, Repr

/-- The scalar field a boolean field is (R96). -/
def BoolField.field : BoolField → ScalarField
  | .filterEnable => .filterEnable
  | .filterAutomation => .filterAutomation
  | .polymeterOnOff => .polymeterOnOff
  | .autoAdvanceOnOff => .autoAdvanceOnOff

/-- One entry for each of the eleven scalar fields (R32). -/
structure PerField (α : Type) where
  tempo : α
  swing : α
  probability : α
  flamLevel : α
  filterMode : α
  filterEnable : α
  filterAutomation : α
  filterSteps : α
  polymeterOnOff : α
  stepSize : α
  autoAdvanceOnOff : α
deriving DecidableEq, Repr, Inhabited

/-- The entry of one field. -/
def PerField.get {α : Type} (p : PerField α) : ScalarField → α
  | .tempo => p.tempo
  | .swing => p.swing
  | .probability => p.probability
  | .flamLevel => p.flamLevel
  | .filterMode => p.filterMode
  | .filterEnable => p.filterEnable
  | .filterAutomation => p.filterAutomation
  | .filterSteps => p.filterSteps
  | .polymeterOnOff => p.polymeterOnOff
  | .stepSize => p.stepSize
  | .autoAdvanceOnOff => p.autoAdvanceOnOff

/-- The table whose entry for each field is given by a function. -/
def PerField.ofFn {α : Type} (f : ScalarField → α) : PerField α where
  tempo := f .tempo
  swing := f .swing
  probability := f .probability
  flamLevel := f .flamLevel
  filterMode := f .filterMode
  filterEnable := f .filterEnable
  filterAutomation := f .filterAutomation
  filterSteps := f .filterSteps
  polymeterOnOff := f .polymeterOnOff
  stepSize := f .stepSize
  autoAdvanceOnOff := f .autoAdvanceOnOff

/-- Where a scalar field lies in the decoded pattern payload: an offset and a width in bytes (R95). -/
structure Span where
  offset : Nat
  width : Nat
deriving DecidableEq, Repr, Inhabited

/-- The type of `P_SCALAR_LAYOUT`: a place for each scalar field (R12, R95). -/
abbrev ScalarLayout := PerField Span

/-- Two fields do not overlap (R95). -/
abbrev Span.Apart (a b : Span) : Prop :=
  a.offset + a.width ≤ b.offset ∨ b.offset + b.width ≤ a.offset

/-- The conditions R95 puts on `P_SCALAR_LAYOUT`: tempo begins at 804; every width is at least 1; the
width of filterSteps is 64 entries of one width; every field lies inside indices 804..888; no two fields
overlap. -/
abbrev PerField.Admissible (l : ScalarLayout) : Prop :=
  l.tempo.offset = Machine.scalarBase ∧
  (∀ f ∈ ScalarField.all, 1 ≤ (l.get f).width) ∧
  l.filterSteps.width % 64 = 0 ∧
  (∀ f ∈ ScalarField.all,
    Machine.scalarBase ≤ (l.get f).offset ∧ (l.get f).offset + (l.get f).width ≤ Machine.patternLen) ∧
  (∀ f ∈ ScalarField.all, ∀ g ∈ ScalarField.all, f ≠ g → (l.get f).Apart (l.get g))

/-- `P_MFR`: the envelope's MANUFACTURER byte (R12: OPEN). Free: notes/assumptions/4.md. -/
opaque Config.pMfr : Byte

/-- `P_PROD`: the envelope's PRODUCT byte (R12: OPEN). Free: notes/assumptions/4.md. -/
opaque Config.pProd : Byte

/-- How far `P_MAX_IN` exceeds its lower bound. Free: notes/assumptions/5.md. -/
opaque Config.maxInSlack : Nat

/-- `P_MAX_IN`: the capacity of IN in bytes, any natural number that is at least 1032 (R12). -/
def Config.maxIn : Nat := Config.maxInSlack + 1032

/-- The table a build gives as `P_SCALAR_LAYOUT` (R12: OPEN). Free: notes/assumptions/6.md. -/
opaque Config.scalarLayoutParam : ScalarLayout

/-- One layout that R95 admits. It only stands in where `Config.scalarLayoutParam` is no layout that R95
admits; no proof can tell that it does: notes/assumptions/6.md. -/
def Config.standInLayout : ScalarLayout where
  tempo := ⟨804, 1⟩
  swing := ⟨805, 1⟩
  probability := ⟨806, 1⟩
  flamLevel := ⟨807, 1⟩
  filterMode := ⟨808, 1⟩
  filterEnable := ⟨809, 1⟩
  filterAutomation := ⟨810, 1⟩
  filterSteps := ⟨811, 64⟩
  polymeterOnOff := ⟨875, 1⟩
  stepSize := ⟨876, 1⟩
  autoAdvanceOnOff := ⟨877, 1⟩

/-- `P_SCALAR_LAYOUT`: any one of the layouts R95 admits, and nothing more is known of it. -/
def Config.scalarLayout : ScalarLayout :=
  if Config.scalarLayoutParam.Admissible then Config.scalarLayoutParam else Config.standInLayout

/-- `P_BOOL_DECODE`: the truth value of a raw boolean field (R12, R96: OPEN). Free:
notes/assumptions/7.md. -/
opaque Config.boolDecode : List Byte → Bool

end Sys2Proof
end

