-- ==== Sys2Proof/Machine/Types.lean ====
section
/-! DEFINITION. The data the block's state is made of (spec/10_state.md) and the host's actions
(spec/60_exceptions.md R114): register names, step records, streaming units, host actions and the values
a host read returns. -/

namespace Sys2Proof.Machine

/-- A register or buffer (R21): its bits, and whether they are a value that something has written. A
register whose `written` is false is the spec's register that holds **no value**: nothing reads its bits,
and its bits are those of reset, which notes/assumptions/1.md names. -/
structure Register (α : Type) where
  bits : α
  written : Bool
deriving DecidableEq, Repr

/-- The register that holds the value `a`. -/
def Register.full {α : Type} (a : α) : Register α := ⟨a, true⟩

/-- The register that holds no value, its bits those of reset. -/
def Register.empty {α : Type} (a : α) : Register α := ⟨a, false⟩

/-- The value a register holds, or none where it holds no value (R21). -/
def Register.value {α : Type} (r : Register α) : Option α := if r.written then some r.bits else none

/-- The twelve tracks in the source's order (R33). -/
inductive Track where
  | accent | bassDrum | snareDrum | lowTomConga | midTomConga | highTomConga
  | rimShotClaves | handClapMaracas | cowBell | cymbal | openHat | closedHat
deriving DecidableEq, Repr

/-- A step record (R31, R90): four bits and the two-bit repeat count. -/
structure StepData where
  onOff : Bool
  probabilityOnOff : Bool
  flamOnOff : Bool
  repeatOnOff : Bool
  repeatCount : BitVec 2
deriving DecidableEq, Repr

/-- The decoded grid, `PAT_STEP[t][s]`: 12 tracks of 64 steps (R31). -/
abbrev StepGrid := Vector (Vector StepData 64) 12

/-- The decoded scalars, `PAT_SCALAR[f]`: the raw bytes of each field (R31, R96). -/
abbrev Scalars := PerField (List Byte)

/-- A byte buffer: the pairs of an index and the byte it holds, indices strictly rising (R36, R39). An
index that is not listed holds no value. -/
abbrev Memory := List Host.Cell

/-- The state of a byte-serial UNESCAPE (R77): `U_POS` and `U_MASK`. -/
structure UnescapeUnit where
  pos : BitVec 3
  mask : Byte
deriving DecidableEq, Repr

/-- The state of a byte-serial ESCAPE (R79): `E_CNT`, `E_MASK` and `E_BUF[0..6]`. -/
structure EscapeUnit where
  cnt : BitVec 3
  mask : Byte
  buf : Vector Byte 7
deriving DecidableEq, Repr

/-- The operand registers the host writes by `SET r, v` (R25, R114). -/
inductive SetReg where
  | dev | mtype | mid | ver0 | ver1 | ver2 | sb
deriving DecidableEq, Repr

/-- The registers the host may read (R114). -/
inductive ResultReg where
  | status
  | out
  | outLen
  | rtype
  | rid
  | stOn
  | stProb
  | stFlam
  | stRep
  | stRcnt
  | patStep (t : Track) (s : Fin 64)
  | patScalar (f : ScalarField)
deriving DecidableEq, Repr

/-- What a host read asks for: a register (R114); the truth value of a boolean scalar (R96); one entry
of filterSteps (R95). -/
inductive ReadView where
  | reg (r : ResultReg)
  | truth (f : BoolField)
  | filterEntry (j : Fin 64)
deriving DecidableEq, Repr

/-- The registers a model fault can name (R102): IN with IN_LEN, an operand register, a result register. -/
inductive Reg where
  | input
  | operand (r : SetReg)
  | result (r : ResultReg)
deriving DecidableEq, Repr

/-- The host actions, complete list (R114). -/
inductive HostAction where
  /-- `LOAD IN, s`. -/
  | load (bs : List Byte)
  /-- `MOVE IN, OUT`. -/
  | move
  /-- `LOAD IN, OUT[a..b)`. -/
  | loadSlice (a b : Nat)
  /-- `SET r, v`; the value is what the host asks for, which may be too wide for the register (R115). -/
  | set (r : SetReg) (v : Nat)
  /-- A write of CMD (R28). -/
  | command (c : Byte)
  /-- A read of a result register or of STATUS. -/
  | read (v : ReadView)
  /-- `RESET`. -/
  | reset
deriving DecidableEq, Repr

/-- A value a host read returns (R114). -/
inductive HostValue where
  | byte (b : Byte)
  | bytes (bs : List Byte)
  | length (n : Nat)
  | bit (b : Bool)
  | count (c : BitVec 2)
  | step (d : StepData)
deriving DecidableEq, Repr

end Sys2Proof.Machine
end

