-- ==== Sys2Proof/Machine/ByteSerial.lean ====
section
/-! DEFINITION. The byte-serial forms of ESCAPE and UNESCAPE (spec/40_nibble_codec.md R77 to R80): one
implementation the spec admits, whose registers the state holds (spec/10_state.md R37). -/

namespace Sys2Proof.Machine

/-- The start of an UNESCAPE operation: `U_POS = 0` (R77). -/
def UnescapeUnit.start (u : UnescapeUnit) : UnescapeUnit := { u with pos := 0#3 }

/-- Byte-serial UNESCAPE takes one input byte: the unit after it and the bytes emitted (R77). -/
def UnescapeUnit.feed (u : UnescapeUnit) (b : Byte) : UnescapeUnit × List Byte :=
  if u.pos = 0#3 then ({ pos := 1#3, mask := b }, [])
  else
    ({ u with pos := if u.pos = 7#3 then 0#3 else u.pos + 1#3 },
      [b ||| (((u.mask >>> (u.pos.toNat - 1)) &&& 1#8) <<< 7)])

/-- The end of the input: nothing is emitted and `U_POS <- 0` (R78). -/
def UnescapeUnit.finish (u : UnescapeUnit) : UnescapeUnit := { u with pos := 0#3 }

/-- Byte-serial UNESCAPE takes a sequence in index order. -/
def UnescapeUnit.feedAll : UnescapeUnit → List Byte → UnescapeUnit × List Byte
  | u, [] => (u, [])
  | u, b :: bs =>
    let r := u.feed b
    let rest := UnescapeUnit.feedAll r.1 bs
    (rest.1, r.2 ++ rest.2)

/-- A whole byte-serial UNESCAPE operation: the unit at its end and every byte emitted (R77, R78). -/
def UnescapeUnit.run (u : UnescapeUnit) (bs : List Byte) : UnescapeUnit × List Byte :=
  let r := u.start.feedAll bs
  (r.1.finish, r.2)

/-- The start of an ESCAPE operation: `E_CNT = 0`, `E_MASK = 0x00` (R79). -/
def EscapeUnit.start (e : EscapeUnit) : EscapeUnit := { e with cnt := 0#3, mask := 0x00#8 }

/-- Byte-serial ESCAPE takes one input byte: the unit after it and the bytes emitted (R79). -/
def EscapeUnit.feed (e : EscapeUnit) (b : Byte) : EscapeUnit × List Byte :=
  let buf := e.buf.setIfInBounds e.cnt.toNat (b &&& 0x7F#8)
  let mask := e.mask ||| ((b &&& 0x80#8) >>> (7 - e.cnt.toNat))
  let cnt := e.cnt + 1#3
  if cnt = 7#3 then ({ cnt := 0#3, mask := 0x00#8, buf := buf }, mask :: buf.toList)
  else ({ cnt := cnt, mask := mask, buf := buf }, [])

/-- The end of the input (flush): a partial group leaves with its mask byte, and `E_CNT <- 0`,
`E_MASK <- 0x00` (R80). -/
def EscapeUnit.flush (e : EscapeUnit) : EscapeUnit × List Byte :=
  ({ e with cnt := 0#3, mask := 0x00#8 },
    if e.cnt = 0#3 then [] else e.mask :: e.buf.toList.take e.cnt.toNat)

/-- Byte-serial ESCAPE takes a sequence in index order. -/
def EscapeUnit.feedAll : EscapeUnit → List Byte → EscapeUnit × List Byte
  | e, [] => (e, [])
  | e, b :: bs =>
    let r := e.feed b
    let rest := EscapeUnit.feedAll r.1 bs
    (rest.1, r.2 ++ rest.2)

/-- A whole byte-serial ESCAPE operation: the unit at its end and every byte emitted (R79, R80). -/
def EscapeUnit.run (e : EscapeUnit) (bs : List Byte) : EscapeUnit × List Byte :=
  let r := e.start.feedAll bs
  let f := r.1.flush
  (f.1, r.2 ++ f.2)

end Sys2Proof.Machine
end

