-- ==== Sys2Proof/Machine/State.lean ====
section
/-! DEFINITION. The state of the block as plain data (spec/10_state.md), its reset value
(spec/70_reset_and_hazards.md R117), the faults the model records (spec/60_exceptions.md R102) and what it
refuses (R115).

A register of type `Register` is one the spec lets hold no value (R21): its `written` is false right after
reset (R117) and, for the result registers of a failed operation, after the failure (R97). The spec forbids
a model to put a value in its place, so nothing reads its bits then; notes/assumptions/1.md. -/

namespace Sys2Proof.Machine

/-- Model faults, the complete list of R102. A fault is no stop: it is recorded in `State.faults`, the
operation or read has no result, and the next state goes on with the host's next action (R99, R102). -/
inductive Fault where
  /-- `UnwrittenOperand(r)`: an operation, or a host read, reads a register that holds no value (R21,
  R102), also right after reset (R117). Made by `valueOf` alone and recorded by `goOn`. Unsafe for a claim
  that does not ask that no fault is recorded, since a block would read something; see
  notes/assumptions/21.md. -/
  | unwrittenOperand (r : Reg)
  /-- `OutOfRange(k)`: a read of IN at an index `k >= IN_LEN` (R44, R102). Made by `State.memReadIn`
  alone; no operation makes such a read, so none is ever recorded. Safe. -/
  | outOfRange (k : Nat)
deriving DecidableEq, Repr

/-- What the model refuses. -/
inductive Refusal where
  /-- An instruction without a meaning; no arm of `exec` is one. Safe. -/
  | notModelled (mnemonic : String)
  /-- `LOAD IN` of more than `P_MAX_IN` bytes, refused by R115. Raised by `loadInput`. Safe. -/
  | loadTooLong (len : Nat)
  /-- `SET` of a register with a value wider than the register, `SET DEV` above 15 among them, refused by
  R115. Raised by `setOperand`. Safe. -/
  | operandTooWide (r : SetReg) (v : Nat)
deriving DecidableEq, Repr

/-- The state of the block and of its host. -/
structure State where
  /-- `IN` (R25). -/
  inBuf : Register Memory
  /-- `IN_LEN` (R25). -/
  inLen : Register Nat
  /-- `DEV` (R25, R26). -/
  dev : Register DeviceId
  /-- `MTYPE` (R25). -/
  mtype : Register Byte
  /-- `MID` (R25). -/
  mid : Register Byte
  /-- `VER0`, firmware version major (R25). -/
  ver0 : Register Byte
  /-- `VER1`, firmware version minor (R25). -/
  ver1 : Register Byte
  /-- `VER2`, firmware version patch (R25). -/
  ver2 : Register Byte
  /-- `SB`, one per-step byte (R25). -/
  sb : Register Byte
  /-- `STATUS`; its one field is `CODE` = STATUS[7:0] (R29). -/
  status : Byte
  /-- `OUT` (R31). -/
  outBuf : Register Memory
  /-- `OUT_LEN` (R31). -/
  outLen : Register Nat
  /-- `RTYPE` (R31). -/
  rtype : Register Byte
  /-- `RID` (R31). -/
  rid : Register Byte
  /-- `ST_ON` (R31). -/
  stOn : Register Bool
  /-- `ST_PROB` (R31). -/
  stProb : Register Bool
  /-- `ST_FLAM` (R31). -/
  stFlam : Register Bool
  /-- `ST_REP` (R31). -/
  stRep : Register Bool
  /-- `ST_RCNT` (R31). -/
  stRcnt : Register (BitVec 2)
  /-- `PAT_STEP[t][s]` (R31); all of them hold a value or none does (R97; notes/assumptions/3.md). -/
  patStep : Register StepGrid
  /-- `PAT_SCALAR[f]` (R31); all of them hold a value or none does (R97; notes/assumptions/3.md). -/
  patScalar : Register Scalars
  /-- `CFG_MFR`, hardwired (R34). -/
  cfgMfr : Byte
  /-- `CFG_PROD`, hardwired (R34). -/
  cfgProd : Byte
  /-- `U_POS` and `U_MASK`, invisible to the host (R37, R77). -/
  unesc : UnescapeUnit
  /-- `E_CNT`, `E_MASK` and `E_BUF`, invisible to the host (R37, R79). -/
  esc : EscapeUnit
  /-- The model's own field: the host's actions still to come, the next one first. `CMD` has no readable
  value (R28); a write of it is the action `command c` at the head. notes/assumptions/2.md. -/
  pending : List HostAction
  /-- The model's own field: the values host reads have returned, the latest last.
  notes/assumptions/2.md. -/
  returned : List HostValue
  /-- The model's record of its faults (R102), the latest last: an operation or a host read of a register
  that holds no value is recorded here and does nothing else (R21, R99), and no later step clears it
  (R102). A run with a fault recorded is never a finished run (R102, R116). notes/assumptions/21.md. -/
  faults : List Fault
deriving DecidableEq, Repr

/-- The state right after reset (R117): every register has its bits, those of the operand and result
registers 0 (notes/assumptions/1.md) and marked as no value, STATUS is NONE, the configuration bytes are
the build's, `U_POS`, `E_CNT` and `E_MASK` are 0, no fault is recorded. `U_MASK` and `E_BUF` are
unspecified there and never observed; the model names 0 for them (notes/assumptions/8.md). The block
waits for the host's first action (R118). -/
def State.reset : State where
  inBuf := .empty []
  inLen := .empty 0
  dev := .empty 0x0#4
  mtype := .empty 0x00#8
  mid := .empty 0x00#8
  ver0 := .empty 0x00#8
  ver1 := .empty 0x00#8
  ver2 := .empty 0x00#8
  sb := .empty 0x00#8
  status := 0x00#8
  outBuf := .empty []
  outLen := .empty 0
  rtype := .empty 0x00#8
  rid := .empty 0x00#8
  stOn := .empty false
  stProb := .empty false
  stFlam := .empty false
  stRep := .empty false
  stRcnt := .empty 0#2
  patStep :=
    .empty (Vector.replicate 12 (Vector.replicate 64 ⟨false, false, false, false, 0#2⟩))
  patScalar :=
    .empty (PerField.ofFn fun f => List.replicate (Config.scalarLayout.get f).width 0x00#8)
  cfgMfr := Config.pMfr
  cfgProd := Config.pProd
  unesc := ⟨0#3, 0x00#8⟩
  esc := ⟨0#3, 0x00#8, Vector.replicate 7 0x00#8⟩
  pending := []
  returned := []
  faults := []

/-- The outcome of a step of this machine. -/
abbrev Result := Host.Outcome State Fault Refusal

end Sys2Proof.Machine
end

