-- ==== Sys2Proof/Machine/Flags.lean ====
section
/-! DEFINITION. STATUS, the block's only flag state (spec/10_state.md R29, R30), and the completion of an
operation (spec/00_scope.md R18). There are no condition codes, so no flag is computed from a result. -/

namespace Sys2Proof.Machine

/-- The legal values of STATUS, by name (R29). -/
inductive StatusCode where
  | none | ok | notOurs | patBadLength | patBadGuard0 | patBadGuard1 | badOp
deriving DecidableEq, Repr

/-- The value of `CODE` for each name (R29). -/
def StatusCode.code : StatusCode → Byte
  | .none => 0x00#8
  | .ok => 0x01#8
  | .notOurs => 0x02#8
  | .patBadLength => 0x03#8
  | .patBadGuard0 => 0x04#8
  | .patBadGuard1 => 0x05#8
  | .badOp => 0x06#8

/-- `complete(S)`: STATUS takes the code and the operation ends (R18). STATUS is written here alone, once
per operation (R30). -/
def State.complete (s : State) (c : StatusCode) : State := { s with status := c.code }

end Sys2Proof.Machine
end

