-- ==== Sys2Proof/Machine/Ops.lean ====
section
/-! DEFINITION. The named operations over the buffers and the registers: one byte of a buffer read or
written (spec/00_scope.md R17), a whole sequence stored, each unit's result registers written
(spec/10_state.md R31), a failure taken (R18, spec/60_exceptions.md R105), and the host's own writes. -/

namespace Sys2Proof.Machine

/-- `MemRead(B, k, 1)`: byte `k` of a buffer (R17); nothing where index `k` holds no value. -/
def Memory.read : Memory → Nat → Option Byte
  | [], _ => none
  | (a, b) :: m, k => if a = k then some b else Memory.read m k

/-- `MemWrite(B, k, 1, v)`: byte `k` of a buffer becomes `v` (R17). -/
def Memory.write : Memory → Nat → Byte → Memory
  | [], k, v => [(k, v)]
  | (a, b) :: m, k, v =>
    if k < a then (k, v) :: (a, b) :: m
    else if k = a then (k, v) :: m
    else (a, b) :: Memory.write m k v

/-- The bytes of a sequence written one after the other from index `k` on (R40, R43). -/
def Memory.writeSeq : Memory → Nat → List Byte → Memory
  | m, _, [] => m
  | m, k, b :: bs => Memory.writeSeq (Memory.write m k b) (k + 1) bs

/-- `B <- s`: the buffer that holds the sequence `s` and nothing else, its first byte at index 0 (R16,
R40). -/
def Memory.ofBytes (bs : List Byte) : Memory := Memory.writeSeq [] 0 bs

/-- The canonical form of a buffer: indices strictly rising. An index not listed holds no value, and no
entry is "no value", so no entry equals what an unlisted index reads as. -/
def Memory.wf : Memory → Bool
  | [] => true
  | [_] => true
  | (a, _) :: (b, c) :: m => decide (a < b) && Memory.wf ((b, c) :: m)

/-- `IN <- s`, `IN_LEN <- len(s)` (R114). -/
def State.putInput (s : State) (bs : List Byte) : State :=
  { s with inBuf := .full (Memory.ofBytes bs), inLen := .full bs.length }

/-- `r <- v` for an operand register (R114); the value is the register's width, see `setOperand`. -/
def State.putOperand (s : State) (r : SetReg) (v : Nat) : State :=
  match r with
  | .dev => { s with dev := .full (BitVec.ofNat 4 v) }
  | .mtype => { s with mtype := .full (BitVec.ofNat 8 v) }
  | .mid => { s with mid := .full (BitVec.ofNat 8 v) }
  | .ver0 => { s with ver0 := .full (BitVec.ofNat 8 v) }
  | .ver1 => { s with ver1 := .full (BitVec.ofNat 8 v) }
  | .ver2 => { s with ver2 := .full (BitVec.ofNat 8 v) }
  | .sb => { s with sb := .full (BitVec.ofNat 8 v) }

/-- `OUT <- out`, `OUT_LEN <- len(out)` (R70, R72, R83, R85). -/
def State.putOutput (s : State) (bs : List Byte) : State :=
  { s with outBuf := .full (Memory.ofBytes bs), outLen := .full bs.length }

/-- `RTYPE <- t`, `RID <- i` (R87). -/
def State.putClass (s : State) (ti : Byte × Byte) : State :=
  { s with rtype := .full ti.1, rid := .full ti.2 }

/-- The five ST registers take a step record (R91). -/
def State.putStep (s : State) (d : StepData) : State :=
  { s with
    stOn := .full d.onOff, stProb := .full d.probabilityOnOff, stFlam := .full d.flamOnOff,
    stRep := .full d.repeatOnOff, stRcnt := .full d.repeatCount }

/-- Every PAT_STEP and PAT_SCALAR is written, "replaced wholesale" (R97). -/
def State.putPattern (s : State) (g : StepGrid) (v : Scalars) : State :=
  { s with patStep := .full g, patScalar := .full v }

/-- Every PAT_STEP and PAT_SCALAR holds no value (R97). -/
def State.clearPattern (s : State) : State :=
  { s with patStep := State.reset.patStep, patScalar := State.reset.patScalar }

/-- The streaming state of UNESCAPE takes a value (R77, R78). -/
def State.putUnesc (s : State) (u : UnescapeUnit) : State := { s with unesc := u }

/-- The streaming state of ESCAPE takes a value (R79, R80). -/
def State.putEsc (s : State) (e : EscapeUnit) : State := { s with esc := e }

/-- `raise <Status>`: the failing operation's result registers hold no value and STATUS takes the failure
code; nothing else changes and control goes nowhere (R18, R105). This is the block's only way to take a
failure; there is no trap and no return from one (R106). -/
def State.raise (s : State) (invalidate : State → State) (c : StatusCode) : State :=
  (invalidate s).complete c

/-- The host takes its next action off its list. -/
def State.dequeue (s : State) (rest : List HostAction) : State := { s with pending := rest }

/-- A host read returned a value; the block itself is unchanged (R46, R114). -/
def State.record (s : State) (v : HostValue) : State := { s with returned := s.returned ++ [v] }

/-- The model records a fault, and nothing else changes: the operation or read has no result (R99, R102). -/
def State.recordFault (s : State) (f : Fault) : State := { s with faults := s.faults ++ [f] }

/-- The host asserts reset: every state item of the block takes its value of R117. The configuration
bytes are not changed by reset (R117), the host's own actions and what it has read are no state of
the block, and a recorded fault is never cleared (R102). -/
def State.hostReset (s : State) : State :=
  { State.reset with
    cfgMfr := s.cfgMfr, cfgProd := s.cfgProd, pending := s.pending, returned := s.returned,
    faults := s.faults }

end Sys2Proof.Machine
end

