-- ==== Sys2Proof/Machine/Operands.lean ====
section
/-! DEFINITION. Reading operands: a register that may hold no value (spec/10_state.md R21), one byte of IN
or OUT (spec/20_memory.md R39, R44), the snapshot of IN an operation works on (R45), and the widths of
the operand registers (spec/10_state.md R25, R26). -/

namespace Sys2Proof.Machine

/-- The width of an operand register in bits (R25). -/
def SetReg.width : SetReg → Nat
  | .dev => 4
  | .mtype | .mid | .ver0 | .ver1 | .ver2 | .sb => 8

/-- The index of a track, in the source's order (R33). -/
def Track.index : Track → Fin 12
  | .accent => 0
  | .bassDrum => 1
  | .snareDrum => 2
  | .lowTomConga => 3
  | .midTomConga => 4
  | .highTomConga => 5
  | .rimShotClaves => 6
  | .handClapMaracas => 7
  | .cowBell => 8
  | .cymbal => 9
  | .openHat => 10
  | .closedHat => 11

/-- Reading a register, or one index of a buffer, that may hold no value: its value, or the model fault
`UnwrittenOperand` of it. This is the one place that makes that fault, and the spec states it: "An
operation that reads a register holding no value does not compute: the model records the fault
`UnwrittenOperand(register)` (`60_exceptions.md`) and the operation has no result", "A host read of a
register holding no value is the same fault", "A model must not substitute zero or any other value" (R21);
R17, R99 and R102 say so too, and R117 of the registers right after reset. -/
def valueOf {α : Type} (r : Reg) (v : Option α) : Except Fault α :=
  match v with
  | some a => .ok a
  | none => .error (.unwrittenOperand r)

/-- `MemRead(IN, k, 1)` (R17): a fault where IN holds no value, where `k` is not below IN_LEN (R44), and
where the buffer holds no byte at `k` (R99; notes/assumptions/12.md). -/
def State.memReadIn (s : State) (k : Nat) : Except Fault Byte :=
  (valueOf .input s.inBuf.value).bind fun m =>
  (valueOf .input s.inLen.value).bind fun n =>
    if k < n then valueOf .input (Memory.read m k) else .error (.outOfRange k)

/-- `MemRead(OUT, k, 1)` (R17), as the host reads OUT: a fault where OUT or OUT_LEN holds no value, and
where OUT holds no byte at `k`, which is so of every `k` not below OUT_LEN (R39, R102;
notes/assumptions/13.md). -/
def State.memReadOut (s : State) (k : Nat) : Except Fault Byte :=
  (valueOf (.result .out) s.outBuf.value).bind fun m =>
  (valueOf (.result .outLen) s.outLen.value).bind fun n =>
    valueOf (.result .out) (if k < n then Memory.read m k else none)

/-- The bytes at `n` indices from `k` on, read one after the other (R43); the first read that faults ends
it. -/
def readSeq (rd : Nat → Except Fault Byte) : Nat → Nat → Except Fault (List Byte)
  | _, 0 => .ok []
  | k, n + 1 =>
    match rd k with
    | .error f => .error f
    | .ok b =>
      match readSeq rd (k + 1) n with
      | .error f => .error f
      | .ok bs => .ok (b :: bs)

/-- `IN[0 .. IN_LEN)`, the snapshot of IN that an operation reads when CMD is written (R45). -/
def State.inputBytes (s : State) : Except Fault (List Byte) :=
  (valueOf .input s.inBuf.value).bind fun _ =>
  (valueOf .input s.inLen.value).bind fun n => readSeq s.memReadIn 0 n

/-- `OUT[0 .. OUT_LEN)`, as the host reads it (R114; notes/assumptions/13.md). -/
def State.outputBytes (s : State) : Except Fault (List Byte) :=
  (valueOf (.result .out) s.outBuf.value).bind fun _ =>
  (valueOf (.result .outLen) s.outLen.value).bind fun n => readSeq s.memReadOut 0 n

/-- What reads goes on with the value read; where the reading faults the model records the fault, and there
is no result (R21, R99, R102). -/
def goOn {α : Type} (s : State) (e : Except Fault α) (k : α → Result) : Result :=
  match e with
  | .ok a => k a
  | .error f => .next (s.recordFault f)

/-- An operation reads the value of an operand register (R21, R102). -/
def need {α : Type} (s : State) (r : SetReg) (v : Register α) (k : α → Result) : Result :=
  goOn s (valueOf (.operand r) v.value) k

/-- An operation reads the snapshot of IN (R21, R45, R102). -/
def needInput (s : State) (k : List Byte → Result) : Result := goOn s s.inputBytes k

end Sys2Proof.Machine
end

