-- ==== Sys2Proof/Machine/NibbleCodec.lean ====
section
/-! DEFINITION. The NibbleCodec unit: ESCAPE and UNESCAPE (spec/40_nibble_codec.md). The functional
definitions are normative (R69); the streaming registers run beside them (R77 to R80). -/

namespace Sys2Proof.Machine

/-- The mask byte of a group: bit 7 of the group's byte `i` is mask bit `i` (R70). -/
def escapeMask (grp : List Byte) : Byte :=
  grp.zipIdx.foldl (fun mask bi => mask ||| ((bi.1 &&& 0x80#8) >>> (7 - bi.2))) 0x00#8

/-- The chunk of a group: its mask byte, then each byte without its bit 7 (R70). -/
def escapeGroup (grp : List Byte) : List Byte :=
  escapeMask grp :: grp.map (fun b => b &&& 0x7F#8)

/-- `escape(bytes)`: one chunk for each group of up to 7 bytes (R70). -/
def escape (bs : List Byte) : List Byte :=
  (List.range (ceilDiv bs.length groupLen)).flatMap fun g =>
    escapeGroup (slice bs (groupLen * g) (groupLen * g + groupLen))

/-- The bytes a chunk decodes to: payload byte `i` with mask bit `i` ORed into its bit 7 (R72;
spec/90_conflicts.md C1 for the shift). -/
def unescapeChunk : List Byte → List Byte
  | [] => []
  | mask :: payload =>
    payload.zipIdx.map fun pi => pi.1 ||| (((mask >>> pi.2) &&& 1#8) <<< 7)

/-- `unescape(bytes)`: the input in chunks of up to 8 bytes (R72). -/
def unescape (bs : List Byte) : List Byte :=
  (List.range (ceilDiv bs.length chunkLen)).flatMap fun c =>
    unescapeChunk (slice bs (chunkLen * c) (chunkLen * c + chunkLen))

/-- ESCAPE (R70). -/
def execEscape (s : State) : Result :=
  needInput s fun bs =>
    .next (((s.putOutput (escape bs)).putEsc (s.esc.run bs).1).complete .ok)

/-- UNESCAPE (R72). -/
def execUnescape (s : State) : Result :=
  needInput s fun bs =>
    .next (((s.putOutput (unescape bs)).putUnesc (s.unesc.run bs).1).complete .ok)

end Sys2Proof.Machine
end

