-- ==== Sys2Proof/Machine/PatternDecoder.lean ====
section
/-! DEFINITION. The PatternDecoder unit: STEP_DECODE and PATTERN_DECODE (spec/42_pattern_decoder.md). -/

namespace Sys2Proof.Machine

/-- `stepDecode(b)`: bits 0, 2, 3, 4 are the four flags, bits 6..5 the repeat count, bits 1 and 7 are not
read (R64, R90). -/
def stepDecode (b : Byte) : StepData where
  onOff := b.getLsbD 0
  probabilityOnOff := b.getLsbD 2
  flamOnOff := b.getLsbD 3
  repeatOnOff := b.getLsbD 4
  repeatCount := b.extractLsb' 5 2

/-- The index of track `t`, step `s`: row-major, 64 bytes a track, from offset 2 (R94). -/
@[simp] abbrev stepIndex (t : Fin 12) (s : Fin 64) : Nat := trackBase + steps * t.val + s.val

/-- Every `PAT_STEP[t][s]` of an 889-byte payload (R93). -/
def decodeGrid (bs : List Byte) (h : bs.length = patternLen) : StepGrid :=
  Vector.ofFn fun t => Vector.ofFn fun s =>
    stepDecode (bs[stepIndex t s]'(by
      have := t.isLt
      have := s.isLt
      simp only [stepIndex, trackBase, steps, patternLen] at *
      omega))

/-- Every `PAT_SCALAR[f]`: the bytes at the field's offset and width, unconverted (R93, R96). -/
def decodeScalars (bs : List Byte) : Scalars :=
  PerField.ofFn fun f =>
    let p := Config.scalarLayout.get f
    slice bs p.offset (p.offset + p.width)

/-- The PatternDecoder on a decoded payload: the guard's tests in their order, the first that fails naming
the status (R92), then the grid and the scalars (R93). -/
def decodePattern (bs : List Byte) : Except StatusCode (StepGrid × Scalars) :=
  if h : bs.length = patternLen then
    have h' : bs.length = 889 := h
    if bs[0] ≠ patternGuard0 then .error .patBadGuard0
    else if bs[1] ≠ patternGuard1 then .error .patBadGuard1
    else .ok (decodeGrid bs h, decodeScalars bs)
  else .error .patBadLength

/-- Entry `j` of filterSteps: 64 entries of one width (R95). -/
def filterEntry (v : Scalars) (j : Fin 64) : List Byte :=
  let e := v.filterSteps.length / 64
  slice v.filterSteps (j.val * e) ((j.val + 1) * e)

/-- STEP_DECODE (R91). -/
def execStepDecode (s : State) : Result :=
  need s .sb s.sb fun b => .next ((s.putStep (stepDecode b)).complete .ok)

/-- PATTERN_DECODE (R93): a failed guard leaves every PAT register holding no value (R97). -/
def execPatternDecode (s : State) : Result :=
  needInput s fun bs =>
    match decodePattern bs with
    | .ok gv => .next ((s.putPattern gv.1 gv.2).complete .ok)
    | .error c => .next (s.raise State.clearPattern c)

end Sys2Proof.Machine
end

