-- ==== Sys2Proof/Machine/SysexFramer.lean ====
section
/-! DEFINITION. The SysexFramer unit: FRAME, REQUEST_FRAME and CLASSIFY (spec/41_sysex_framer.md). -/

namespace Sys2Proof.Machine

/-- The seven header bytes of every frame (R60). -/
def frameHeader (mfr prod : Byte) (dev : DeviceId) (mtype mid : Byte) : List Byte :=
  [hdr0, hdr1, mfr, prod, dev.setWidth 8, mtype, mid]

/-- A plain frame: the header, then the payload unchanged (R60, R83). -/
def plainFrame (mfr prod : Byte) (dev : DeviceId) (mtype mid : Byte) (payload : List Byte) :
    List Byte :=
  frameHeader mfr prod dev mtype mid ++ payload

/-- A request frame: the header, the magic prefix, the version bytes major, minor, patch, then the payload
unchanged (R61, R85). -/
def requestFrameBytes (mfr prod : Byte) (dev : DeviceId) (v0 v1 v2 mtype mid : Byte)
    (payload : List Byte) : List Byte :=
  frameHeader mfr prod dev mtype mid ++ magic ++ [v0, v1, v2] ++ payload

/-- `classify(message)`: the message type and message ID of a message of this protocol, or nothing for
"not ours". The length is tested first (R87). -/
def classifyBytes (mfr prod : Byte) (bs : List Byte) : Option (Byte × Byte) :=
  if h : minClassifyLen ≤ bs.length then
    have h' : 7 ≤ bs.length := h
    if bs[0] = hdr0 ∧ bs[1] = hdr1 ∧ bs[2] = mfr ∧ bs[3] = prod then some (bs[5], bs[6])
    else none
  else none

/-- FRAME (R83). -/
def execFrame (s : State) : Result :=
  need s .dev s.dev fun dev =>
  need s .mtype s.mtype fun mtype =>
  need s .mid s.mid fun mid =>
  needInput s fun bs =>
    .next ((s.putOutput (plainFrame s.cfgMfr s.cfgProd dev mtype mid bs)).complete .ok)

/-- REQUEST_FRAME (R85). -/
def execRequestFrame (s : State) : Result :=
  need s .dev s.dev fun dev =>
  need s .ver0 s.ver0 fun v0 =>
  need s .ver1 s.ver1 fun v1 =>
  need s .ver2 s.ver2 fun v2 =>
  need s .mtype s.mtype fun mtype =>
  need s .mid s.mid fun mid =>
  needInput s fun bs =>
    .next ((s.putOutput
      (requestFrameBytes s.cfgMfr s.cfgProd dev v0 v1 v2 mtype mid bs)).complete .ok)

/-- CLASSIFY (R87): "not ours" is a result, the sentinel, and STATUS tells the two apart (R88). -/
def execClassify (s : State) : Result :=
  needInput s fun bs =>
    match classifyBytes s.cfgMfr s.cfgProd bs with
    | some ti => .next ((s.putClass ti).complete .ok)
    | none => .next ((s.putClass sentinel).complete .notOurs)

end Sys2Proof.Machine
end

