-- ==== Sys2Proof/Machine/Dispatch.lean ====
section
/-! DEFINITION. One arm for each instruction of spec/opcode_table.json (spec/30_encoding.md R55). -/

namespace Sys2Proof.Machine

def exec (i : Instr) (s : State) : Host.Outcome State Fault Refusal :=
  match i with
  | .escape => Sys2Proof.Machine.execEscape s
  | .unescape => Sys2Proof.Machine.execUnescape s
  | .frame => Sys2Proof.Machine.execFrame s
  | .requestFrame => Sys2Proof.Machine.execRequestFrame s
  | .classify => Sys2Proof.Machine.execClassify s
  | .stepDecode => Sys2Proof.Machine.execStepDecode s
  | .patternDecode => Sys2Proof.Machine.execPatternDecode s

end Sys2Proof.Machine
end

