-- ==== Sys2Proof/WellFormed.lean ====
section
/-! DEFINITION. Which instructions and host actions are well formed. An instruction carries no operand
(spec/30_encoding.md R54), so there is nothing in one that could be out of range; what the spec bounds is
what the host hands over (spec/60_exceptions.md R115). -/

namespace Sys2Proof

/-- An instruction has no field, so each of the seven is well formed (R54, R55). -/
abbrev Instr.WellFormed (i : Instr) : Prop :=
  i ∈ [Instr.escape, .unescape, .frame, .requestFrame, .classify, .stepDecode, .patternDecode]

/-- A host action hands over only what its register can hold: at most `P_MAX_IN` bytes for IN, a value of
the register's width for `SET` (R25, R26, R115). What `MOVE` and the slice `LOAD` hand over depends on
OUT, so their bound is checked when they are performed. -/
abbrev Machine.HostAction.WellFormed : Machine.HostAction → Prop
  | .load bs => bs.length ≤ Config.maxIn
  | .set r v => v < 2 ^ r.width
  | .move | .loadSlice _ _ | .command _ | .read _ | .reset => True

end Sys2Proof
end

