-- ==== Sys2Proof/Machine/HostActions.lean ====
section
/-! DEFINITION. What the block does on each host action (spec/60_exceptions.md R114), and taking the next
one: the block performs one action at a time, in the host's order (spec/20_memory.md R49). -/

namespace Sys2Proof.Machine

/-- `LOAD IN, s`: refused where `s` is longer than `P_MAX_IN` (R114, R115). -/
def loadInput (bs : List Byte) (s : State) : Result :=
  if bs.length ≤ Config.maxIn then .next (s.putInput bs) else .refused (.loadTooLong bs.length)

/-- `SET r, v`: refused, not truncated, where `v` is wider than the register (R26, R114, R115). -/
def setOperand (r : SetReg) (v : Nat) (s : State) : Result :=
  if v < 2 ^ r.width then .next (s.putOperand r v) else .refused (.operandTooWide r v)

/-- `MOVE IN, OUT`: a read of OUT and OUT_LEN, then `LOAD IN` of the bytes read (R68, R114). -/
def moveOutput (s : State) : Result := goOn s s.outputBytes fun bs => loadInput bs s

/-- `LOAD IN, OUT[a..b)`: a read of OUT and OUT_LEN, then `LOAD IN` of the slice (R68, R114). -/
def loadOutputSlice (a b : Nat) (s : State) : Result :=
  goOn s s.outputBytes fun bs => loadInput (slice bs a b) s

/-- A CMD write of a reserved value: no operand is read, STATUS becomes BAD_OP and every other register
keeps its value (R56, R101). -/
def reservedCommand (s : State) : Result := .next (s.complete .badOp)

/-- A write of CMD: the operation the code selects, decided from CMD alone before any operand is read
(R28, R103). -/
def runCommand (c : Byte) (s : State) : Result :=
  match decode c with
  | .ok i => exec i s
  | .error _ => reservedCommand s

/-- The value of a register that may hold none, for a host read (R21, R102). -/
def held {α : Type} (r : ResultReg) (v : Register α) (k : α → HostValue) : Except Fault HostValue :=
  (valueOf (.result r) v.value).map k

/-- The value of a result register or of STATUS (R29, R31, R114). -/
def readResult (r : ResultReg) (s : State) : Except Fault HostValue :=
  match r with
  | .status => .ok (.byte s.status)
  | .out => s.outputBytes.map .bytes
  | .outLen => held .outLen s.outLen .length
  | .rtype => held .rtype s.rtype .byte
  | .rid => held .rid s.rid .byte
  | .stOn => held .stOn s.stOn .bit
  | .stProb => held .stProb s.stProb .bit
  | .stFlam => held .stFlam s.stFlam .bit
  | .stRep => held .stRep s.stRep .bit
  | .stRcnt => held .stRcnt s.stRcnt .count
  | .patStep t j => held (.patStep t j) s.patStep fun g => .step (g[t.index][j])
  | .patScalar f => held (.patScalar f) s.patScalar fun v => .bytes (v.get f)

/-- What a host read returns: a register, the truth value `P_BOOL_DECODE` gives a boolean scalar (R96), or
an entry of filterSteps (R95). -/
def readView (v : ReadView) (s : State) : Except Fault HostValue :=
  match v with
  | .reg r => readResult r s
  | .truth f => held (.patScalar f.field) s.patScalar fun v => .bit (Config.boolDecode (v.get f.field))
  | .filterEntry j => held (.patScalar .filterSteps) s.patScalar fun v => .bytes (filterEntry v j)

/-- A host read: the value is returned and nothing of the block changes (R46, R114). -/
def hostRead (v : ReadView) (s : State) : Result := goOn s (readView v s) fun x => .next (s.record x)

/-- What the block does on each host action (R114). -/
def performAction (a : HostAction) (s : State) : Result :=
  match a with
  | .load bs => loadInput bs s
  | .move => moveOutput s
  | .loadSlice a b => loadOutputSlice a b s
  | .set r v => setOperand r v s
  | .command c => runCommand c s
  | .read v => hostRead v s
  | .reset => .next s.hostReset

/-- The host's next action is performed; where it has none, the block waits and nothing changes (R49,
R118; notes/assumptions/9.md). -/
def nextAction (s : State) : Result :=
  match s.pending with
  | [] => .next s
  | a :: rest => performAction a (s.dequeue rest)

end Sys2Proof.Machine
end

