-- ==== Sys2Proof/Machine/Step.lean ====
section
/-! DEFINITION. One step of the machine: one host action (spec/60_exceptions.md R114), each operation one
atomic step (spec/92_eei_decisions.md D1). The block has no program counter and fetches nothing (spec/10_state.md
R23): its next instruction is the host's next write of CMD. -/

namespace Sys2Proof.Machine

/-- One step: the host's next action. -/
def step (s : State) : Host.Outcome State Fault Refusal := Sys2Proof.Machine.nextAction s

/-- The state whose next step runs the instruction of `nbits` bits numbered `w`: a write of CMD with that
word is the host's next action. Nothing else changes; the operands are the host's to load (R121).
notes/assumptions/2.md. -/
def State.withFetchWord (s : State) (nbits w : Nat) : State :=
  { s with pending := .command (BitVec.ofNat 8 (w % 2 ^ nbits)) :: s.pending }

end Sys2Proof.Machine
end

