-- ==== Sys2Proof/Safety.lean ====
section
/-! DEFINITION. The terms claims use: what IN and OUT hold, what a legal STATUS is, which states the
machine's invariants admit, and when a run of host actions has finished (spec/60_exceptions.md R116). -/

namespace Sys2Proof.Machine

/-- IN holds the sequence `bs`: IN_LEN is its length and the byte at each index below IN_LEN is its byte.
Bytes of IN at or above IN_LEN are no part of the input (R25, R39). -/
def State.InHolds (s : State) (bs : List Byte) : Prop :=
  s.inLen.value = some bs.length ∧
    ∃ m, s.inBuf.value = some m ∧ ∀ k, k < bs.length → Memory.read m k = bs[k]?

/-- OUT holds the sequence `bs` and nothing else: OUT_LEN is its length, each index below OUT_LEN holds its
byte, and no index at or above OUT_LEN holds a value (R31, R39). -/
def State.OutHolds (s : State) (bs : List Byte) : Prop :=
  s.outLen.value = some bs.length ∧ ∃ m, s.outBuf.value = some m ∧ ∀ k, Memory.read m k = bs[k]?

/-- STATUS holds one of the seven legal values (R29). -/
def State.StatusLegal (s : State) : Prop := ∃ c : StatusCode, s.status = c.code

/-- A buffer and its length register agree: neither holds a value, or the buffer is in canonical form and
holds a byte at exactly the indices below the length (R39). -/
def BufferAgrees : Option Memory → Option Nat → Prop
  | none, none => True
  | some m, some n => Memory.wf m = true ∧ ∀ k, (Memory.read m k).isSome = true ↔ k < n
  | _, _ => False

/-- IN agrees with IN_LEN and OUT with OUT_LEN (R39). -/
def State.BuffersAgree (s : State) : Prop :=
  BufferAgrees s.inBuf.value s.inLen.value ∧ BufferAgrees s.outBuf.value s.outLen.value

/-- What OUT must be able to hold: `P_MAX_IN + ceil_div(P_MAX_IN, 7) + 14` bytes (R31). -/
def outCapacity : Nat := Config.maxIn + ceilDiv Config.maxIn groupLen + 14

/-- IN_LEN is within `P_MAX_IN` and OUT_LEN within the capacity of OUT (R25, R31). -/
def State.WithinCapacity (s : State) : Prop :=
  (∀ n, s.inLen.value = some n → n ≤ Config.maxIn) ∧ (∀ n, s.outLen.value = some n → n ≤ outCapacity)

/-- The streaming registers are at their start values between operations (R37, R81). -/
def State.StreamsAtRest (s : State) : Prop :=
  s.unesc.pos = 0#3 ∧ s.esc.cnt = 0#3 ∧ s.esc.mask = 0x00#8

/-- The configuration bytes are the build's (R34). -/
def State.ConfigHardwired (s : State) : Prop :=
  s.cfgMfr = Config.pMfr ∧ s.cfgProd = Config.pProd

/-- The PAT registers hold values all together or not at all, and each scalar has its field's width (R93,
R97). -/
def State.PatternWhole (s : State) : Prop :=
  (s.patStep.value.isSome = s.patScalar.value.isSome) ∧
    ∀ v, s.patScalar.value = some v →
      ∀ f : ScalarField, (v.get f).length = (Config.scalarLayout.get f).width

/-- A **valid escaped sequence** (R74): (a) every byte is at most 0x7F; (b) no final chunk is a mask byte
alone; (c) in a final chunk of `k < 7` payload bytes, mask bits `k..6` are 0. -/
def ValidEscaped (e : List Byte) : Prop :=
  (∀ b ∈ e, b ≤ 0x7F#8) ∧
  e.length % chunkLen ≠ 1 ∧
  (∀ mask, e.length % chunkLen ≠ 0 → e[chunkLen * (e.length / chunkLen)]? = some mask →
    ∀ i, e.length % chunkLen - 1 ≤ i → i ≤ 6 → mask.getLsbD i = false)

/-- The operand registers and the configuration are the same in two states (R27, R34). -/
def SameOperands (s t : State) : Prop :=
  t.inBuf = s.inBuf ∧ t.inLen = s.inLen ∧ t.dev = s.dev ∧ t.mtype = s.mtype ∧ t.mid = s.mid ∧
    t.ver0 = s.ver0 ∧ t.ver1 = s.ver1 ∧ t.ver2 = s.ver2 ∧ t.sb = s.sb ∧
    t.cfgMfr = s.cfgMfr ∧ t.cfgProd = s.cfgProd

/-- The host's list of actions and what it has read are the same in two states. -/
def SameHost (s t : State) : Prop := t.pending = s.pending ∧ t.returned = s.returned

/-- OUT and OUT_LEN are the same in two states. -/
def SameOut (s t : State) : Prop := t.outBuf = s.outBuf ∧ t.outLen = s.outLen

/-- RTYPE and RID are the same in two states. -/
def SameClass (s t : State) : Prop := t.rtype = s.rtype ∧ t.rid = s.rid

/-- The ST registers are the same in two states. -/
def SameStep (s t : State) : Prop :=
  t.stOn = s.stOn ∧ t.stProb = s.stProb ∧ t.stFlam = s.stFlam ∧ t.stRep = s.stRep ∧
    t.stRcnt = s.stRcnt

/-- The PAT registers are the same in two states. -/
def SamePattern (s t : State) : Prop := t.patStep = s.patStep ∧ t.patScalar = s.patScalar

/-- The streaming registers are the same in two states. -/
def SameStreams (s t : State) : Prop := t.unesc = s.unesc ∧ t.esc = s.esc

/-- Every byte of both buffers reads the same in two states, and so do their lengths. -/
def SameMemory (s t : State) : Prop :=
  (∀ k, t.memReadIn k = s.memReadIn k) ∧ (∀ k, t.memReadOut k = s.memReadOut k) ∧
    t.inLen = s.inLen ∧ t.outLen = s.outLen

/-- The operand registers an operation reads (R55, column "reads"); IN stands for IN and IN_LEN. -/
def operandsRead : Instr → List Reg
  | .escape | .unescape | .classify | .patternDecode => [.input]
  | .frame => [.operand .dev, .operand .mtype, .operand .mid, .input]
  | .requestFrame =>
    [.operand .dev, .operand .ver0, .operand .ver1, .operand .ver2, .operand .mtype, .operand .mid,
      .input]
  | .stepDecode => [.operand .sb]

/-- An operand holds no value (R21). IN holds none where it holds no sequence of IN_LEN bytes. Result
registers are no operands. -/
def State.Unwritten (s : State) : Reg → Prop
  | .input => ∀ bs, ¬ s.InHolds bs
  | .operand .dev => s.dev.value = none
  | .operand .mtype => s.mtype.value = none
  | .operand .mid => s.mid.value = none
  | .operand .ver0 => s.ver0.value = none
  | .operand .ver1 => s.ver1.value = none
  | .operand .ver2 => s.ver2.value = none
  | .operand .sb => s.sb.value = none
  | .result _ => False

/-- Outcome 3 of R99: the model records the fault of an operand that holds no value, and the operation
has no result, so nothing else changes (R21, R102). -/
def FaultRecorded (i : Instr) (s t : State) : Prop :=
  ∃ r ∈ operandsRead i, s.Unwritten r ∧ t = s.recordFault (.unwrittenOperand r)

/-- Two states differ in nothing but the bits of registers that hold no value (R21). -/
def SameValues (s u : State) : Prop :=
  u.inBuf.value = s.inBuf.value ∧ u.inLen.value = s.inLen.value ∧ u.dev.value = s.dev.value ∧
    u.mtype.value = s.mtype.value ∧ u.mid.value = s.mid.value ∧ u.ver0.value = s.ver0.value ∧
    u.ver1.value = s.ver1.value ∧ u.ver2.value = s.ver2.value ∧ u.sb.value = s.sb.value ∧
    u.outBuf.value = s.outBuf.value ∧ u.outLen.value = s.outLen.value ∧
    u.rtype.value = s.rtype.value ∧ u.rid.value = s.rid.value ∧ u.stOn.value = s.stOn.value ∧
    u.stProb.value = s.stProb.value ∧ u.stFlam.value = s.stFlam.value ∧
    u.stRep.value = s.stRep.value ∧ u.stRcnt.value = s.stRcnt.value ∧
    u.patStep.value = s.patStep.value ∧ u.patScalar.value = s.patScalar.value ∧
    u.status = s.status ∧ u.cfgMfr = s.cfgMfr ∧ u.cfgProd = s.cfgProd ∧ u.unesc = s.unesc ∧
    u.esc = s.esc ∧ u.pending = s.pending ∧ u.returned = s.returned ∧ u.faults = s.faults

/-- What a host read returns, register by register: STATUS always, every other register the value it
holds (R29, R31, R114), a boolean scalar's truth value (R96), an entry of filterSteps (R95). -/
def State.Shows (s : State) : ReadView → HostValue → Prop
  | .reg .status, x => x = .byte s.status
  | .reg .out, x => ∃ bs, s.OutHolds bs ∧ x = .bytes bs
  | .reg .outLen, x => ∃ n, s.outLen.value = some n ∧ x = .length n
  | .reg .rtype, x => ∃ b, s.rtype.value = some b ∧ x = .byte b
  | .reg .rid, x => ∃ b, s.rid.value = some b ∧ x = .byte b
  | .reg .stOn, x => ∃ b, s.stOn.value = some b ∧ x = .bit b
  | .reg .stProb, x => ∃ b, s.stProb.value = some b ∧ x = .bit b
  | .reg .stFlam, x => ∃ b, s.stFlam.value = some b ∧ x = .bit b
  | .reg .stRep, x => ∃ b, s.stRep.value = some b ∧ x = .bit b
  | .reg .stRcnt, x => ∃ c, s.stRcnt.value = some c ∧ x = .count c
  | .reg (.patStep t j), x => ∃ g : StepGrid, s.patStep.value = some g ∧ x = .step (g[t.index][j])
  | .reg (.patScalar f), x => ∃ v, s.patScalar.value = some v ∧ x = .bytes (v.get f)
  | .truth f, x => ∃ v, s.patScalar.value = some v ∧ x = .bit (Config.boolDecode (v.get f.field))
  | .filterEntry j, x => ∃ v, s.patScalar.value = some v ∧ x = .bytes (filterEntry v j)

/-- The register a host read names when it holds no value (R21, R102); a read of OUT needs OUT_LEN too. -/
def State.Lacks (s : State) : ReadView → ResultReg → Prop
  | .reg .status, _ => False
  | .reg .out, r =>
    (s.outBuf.value = none ∧ r = .out) ∨
      (s.outBuf.value ≠ none ∧ s.outLen.value = none ∧ r = .outLen)
  | .reg .outLen, r => s.outLen.value = none ∧ r = .outLen
  | .reg .rtype, r => s.rtype.value = none ∧ r = .rtype
  | .reg .rid, r => s.rid.value = none ∧ r = .rid
  | .reg .stOn, r => s.stOn.value = none ∧ r = .stOn
  | .reg .stProb, r => s.stProb.value = none ∧ r = .stProb
  | .reg .stFlam, r => s.stFlam.value = none ∧ r = .stFlam
  | .reg .stRep, r => s.stRep.value = none ∧ r = .stRep
  | .reg .stRcnt, r => s.stRcnt.value = none ∧ r = .stRcnt
  | .reg (.patStep t j), r => s.patStep.value = none ∧ r = .patStep t j
  | .reg (.patScalar f), r => s.patScalar.value = none ∧ r = .patScalar f
  | .truth f, r => s.patScalar.value = none ∧ r = .patScalar f.field
  | .filterEntry _, r => s.patScalar.value = none ∧ r = .patScalar .filterSteps

/-- The message has more than 6 data bytes and the header of this protocol (R87). -/
def IsOurs (mfr prod : Byte) (bs : List Byte) : Prop :=
  6 < bs.length ∧ bs[0]? = some 0x00#8 ∧ bs[1]? = some 0x20#8 ∧ bs[2]? = some mfr ∧ bs[3]? = some prod

/-- The payload passes the pattern guard (R92). -/
def PassesGuard (bs : List Byte) : Prop :=
  bs.length = 889 ∧ bs[0]? = some 0x00#8 ∧ bs[1]? = some 0x08#8

/-- A host program has been performed from `s` with no refusal and no model fault recorded, and left `t`
(R102, R116): one step for each of its actions. -/
def Finishes (program : List HostAction) (s t : State) : Prop :=
  Host.Core.run Sys2Proof.core program.length { s with pending := program } =
    Host.Outcome.next t ∧ t.pending = [] ∧ t.faults = []

end Sys2Proof.Machine
end

