-- ==== Sys2Proof/Certificates/Slice0/Obligations.lean ====
section
/-! DEFINITION. The statements for the provers. Each docstring names the rule of spec/ it formalises. An
operation's own statements speak of `exec`; `StepRunsCommand` carries them to a step. -/

open Sys2Proof Sys2Proof.Machine

/-! ### Encoding and the step -/

/-- The seven command words of R55 decode to their operations, and exactly 249 of the 256 words select
none (R56). -/
def Obligations.CommandWordsDecode : Prop :=
  decode 0x01#8 = .ok .escape ∧ decode 0x02#8 = .ok .unescape ∧ decode 0x11#8 = .ok .frame ∧
  decode 0x12#8 = .ok .requestFrame ∧ decode 0x13#8 = .ok .classify ∧
  decode 0x21#8 = .ok .stepDecode ∧ decode 0x22#8 = .ok .patternDecode ∧
  ((List.range 256).filter fun w => (decodeTableWord 8 w).isNone).length = 249

/-- The command word of every operation decodes to it, and a word that decodes to an operation is that
operation's word: one word, one meaning (R54, R55). -/
def Obligations.DecodeAndEncodeAgree : Prop :=
  ∀ (c : Byte) (i : Instr), decode c = .ok i ↔ c = encode i

/-- A write of CMD whose code selects an operation is one step that runs exactly that operation, on the
state with the action taken off the host's list (R49, R114); the word `withFetchWord` places is run so. -/
def Obligations.StepRunsCommand : Prop :=
  (∀ (s : State) (c : Byte) (rest : List HostAction) (i : Instr),
    s.pending = .command c :: rest → decode c = .ok i →
      step s = exec i { s with pending := rest }) ∧
  (∀ (s : State) (w : Nat) (i : Instr),
    decodeTableWord 8 w = some i → step (s.withFetchWord 8 w) = exec i s)

/-- R101: a reserved command reads no operand, changes no result register and writes STATUS 0x06. It holds
of every code that is not one of the seven, whatever the operands hold. -/
def Obligations.ReservedCommandReportsBadOp : Prop :=
  ∀ (s : State) (c : Byte) (rest : List HostAction),
    s.pending = .command c :: rest →
    c ∉ [0x01#8, 0x02#8, 0x11#8, 0x12#8, 0x13#8, 0x21#8, 0x22#8] →
      step s = .next { s with pending := rest, status := 0x06#8 }

/-- Where the host has no action the block waits (R118; the model's reading, notes/assumptions/9.md). -/
def Obligations.BlockWaitsForHost : Prop :=
  ∀ s : State, s.pending = [] → step s = .next s

/-- The host's actions run one at a time, in the order the host makes them (R49): a step takes the first of
them, whichever it is, and only a read adds to what the host has been given. How the state holds the
host's actions is the model's choice (notes/assumptions/2.md). -/
def Obligations.StepTakesActionsInOrder : Prop :=
  ∀ (s t : State) (a : HostAction) (rest : List HostAction),
    s.pending = a :: rest → step s = .next t →
      t.pending = rest ∧ ((∀ v, a ≠ .read v) → t.returned = s.returned)

/-! ### NibbleCodec -/

/-- R70 and R71: ESCAPE writes, for each group of up to 7 bytes, a mask byte whose bit `i` is bit 7 of the
group's byte `i` (0 where the group has no such byte, and in bit 7), then each byte of the group without
its bit 7; OUT_LEN is `IN_LEN + ceil_div(IN_LEN, 7)` and STATUS is OK. With IN holding no value the model
records UnwrittenOperand(IN). -/
def Obligations.EscapeWritesMaskedGroups : Prop :=
  encode .escape = 0x01#8 ∧
  (∀ (s : State) (bs : List Byte), s.InHolds bs →
    ∃ t out, exec .escape s = .next t ∧ t.faults = s.faults ∧ t.OutHolds out ∧ t.status = 0x01#8 ∧
      out.length = bs.length + ceilDiv bs.length 7 ∧
      ∀ g, g < ceilDiv bs.length 7 →
        (∃ mask, out[8 * g]? = some mask ∧ mask.getLsbD 7 = false ∧
          ∀ i, i < 7 → mask.getLsbD i = (bs[7 * g + i]?.any fun b => b.getLsbD 7)) ∧
        ∀ i b, i < 7 → bs[7 * g + i]? = some b → out[8 * g + 1 + i]? = some (b &&& 0x7F#8)) ∧
  ∀ s : State, s.inBuf.value = none →
      exec .escape s = .next (s.recordFault (.unwrittenOperand .input))

/-- R72 and R73: UNESCAPE writes, for each payload byte `i` of each chunk, that byte with mask bit `i` ORed
into its bit 7; OUT_LEN is `7 * floor_div(IN_LEN, 8) + max(0, (IN_LEN mod 8) - 1)` and STATUS is OK,
whatever the input bytes. With IN holding no value the model records UnwrittenOperand(IN). -/
def Obligations.UnescapeRestoresHighBits : Prop :=
  encode .unescape = 0x02#8 ∧
  (∀ (s : State) (bs : List Byte), s.InHolds bs →
    ∃ t out, exec .unescape s = .next t ∧ t.faults = s.faults ∧ t.OutHolds out ∧
      t.status = 0x01#8 ∧
      out.length = 7 * (bs.length / 8) + (bs.length % 8 - 1) ∧
      ∀ c i mask p, i < 7 → bs[8 * c]? = some mask → bs[8 * c + 1 + i]? = some p →
        out[7 * c + i]? = some (if mask.getLsbD i then p ||| 0x80#8 else p)) ∧
  ∀ s : State, s.inBuf.value = none →
      exec .unescape s = .next (s.recordFault (.unwrittenOperand .input))

/-- R82: every byte ESCAPE writes to OUT is at most 0x7F. -/
def Obligations.EscapeOutputIsSevenBit : Prop :=
  ∀ (s : State) (bs : List Byte), s.InHolds bs →
    ∃ t out, exec .escape s = .next t ∧ t.OutHolds out ∧ ∀ b ∈ out, b ≤ 0x7F#8

/-- R75: UNESCAPE of what ESCAPE of any sequence wrote gives the sequence back. -/
def Obligations.UnescapeUndoesEscape : Prop :=
  ∀ (s : State) (d : List Byte), s.InHolds d →
    ∃ t e, exec .escape s = .next t ∧ t.OutHolds e ∧
      ∀ u : State, u.InHolds e → ∃ v, exec .unescape u = .next v ∧ v.OutHolds d

/-- R76, with R74 for "valid": ESCAPE of what UNESCAPE of a sequence wrote gives the sequence back exactly
if the sequence is a valid escaped sequence. -/
def Obligations.EscapeUndoesUnescapeOnValid : Prop :=
  ∀ (s : State) (e : List Byte), s.InHolds e →
    ∃ t d, exec .unescape s = .next t ∧ t.OutHolds d ∧
      ∀ u : State, u.InHolds d →
        ∃ v e', exec .escape u = .next v ∧ v.OutHolds e' ∧ (e' = e ↔ ValidEscaped e)

/-- R59: UNESCAPE does not read mask bit 7, nor a mask bit whose payload byte is absent: two inputs that
differ in nothing else give the same OUT. -/
def Obligations.UnescapeIgnoresBitsWithoutData : Prop :=
  ∀ (s s' : State) (bs bs' : List Byte), s.InHolds bs → s'.InHolds bs' →
    bs.length = bs'.length →
    (∀ c i, i < 7 → bs[8 * c + 1 + i]? = bs'[8 * c + 1 + i]?) →
    (∀ c i mask mask', i < 7 → bs[8 * c]? = some mask → bs'[8 * c]? = some mask' →
      8 * c + 1 + i < bs.length → mask.getLsbD i = mask'.getLsbD i) →
    ∃ t t' out, exec .unescape s = .next t ∧ exec .unescape s' = .next t' ∧
      t.OutHolds out ∧ t'.OutHolds out

/-- R81: for every input, the byte-serial forms of R77 to R80 emit what the functional forms of R72 and R70
write, whatever their registers held before, and end with `U_POS`, `E_CNT` and `E_MASK` at their start
values (notes/assumptions/8.md: the spec gives U_MASK and E_BUF none). -/
def Obligations.ByteSerialFormsEqualFunctional : Prop :=
  (∀ (u : UnescapeUnit) (s : State) (bs : List Byte), s.InHolds bs →
    ∃ t, exec .unescape s = .next t ∧ t.OutHolds (u.run bs).2 ∧ (u.run bs).1.pos = 0#3) ∧
  ∀ (e : EscapeUnit) (s : State) (bs : List Byte), s.InHolds bs →
    ∃ t, exec .escape s = .next t ∧ t.OutHolds (e.run bs).2 ∧
      (e.run bs).1.cnt = 0#3 ∧ (e.run bs).1.mask = 0x00#8

/-- R37: no result of an operation depends on the streaming registers: with any other values in them the
operation ends in the same next state but for those registers, with the same fault recorded if any. -/
def Obligations.StreamRegistersAreInvisible : Prop :=
  ∀ (i : Instr) (s : State) (u : UnescapeUnit) (e : EscapeUnit),
    ∀ t, exec i s = .next t →
      ∃ t', exec i { s with unesc := u, esc := e } = .next t' ∧
        { t' with unesc := t.unesc, esc := t.esc } = t

/-! ### SysexFramer -/

/-- R83: FRAME writes the seven header bytes and the payload unchanged to OUT, OUT_LEN = 7 + IN_LEN,
STATUS OK; with DEV, MTYPE, MID or IN holding no value the model records the fault of such a
register. -/
def Obligations.FrameWritesHeaderAndPayload : Prop :=
  encode .frame = 0x11#8 ∧
  (∀ (s : State) (dev : DeviceId) (mtype mid : Byte) (bs : List Byte),
    s.dev.value = some dev → s.mtype.value = some mtype → s.mid.value = some mid → s.InHolds bs →
    ∃ t, exec .frame s = .next t ∧ t.faults = s.faults ∧
      t.OutHolds ([0x00#8, 0x20#8, s.cfgMfr, s.cfgProd, dev.setWidth 8, mtype, mid] ++ bs) ∧
      t.outLen.value = some (7 + bs.length) ∧ t.status = 0x01#8) ∧
  ∀ s : State, s.dev.value = none ∨ s.mtype.value = none ∨ s.mid.value = none ∨
      s.inBuf.value = none →
    ∃ r ∈ operandsRead .frame, s.Unwritten r ∧
      exec .frame s = .next (s.recordFault (.unwrittenOperand r))

/-- R85: REQUEST_FRAME writes the header, the magic prefix, the version bytes major, minor, patch and the
payload unchanged to OUT, OUT_LEN = 14 + IN_LEN, STATUS OK; with any operand holding no value the
model records the fault of such a register. -/
def Obligations.RequestFrameWritesMagicAndVersion : Prop :=
  encode .requestFrame = 0x12#8 ∧
  (∀ (s : State) (dev : DeviceId) (v0 v1 v2 mtype mid : Byte) (bs : List Byte),
    s.dev.value = some dev → s.ver0.value = some v0 → s.ver1.value = some v1 →
    s.ver2.value = some v2 →
    s.mtype.value = some mtype → s.mid.value = some mid → s.InHolds bs →
    ∃ t, exec .requestFrame s = .next t ∧ t.faults = s.faults ∧
      t.OutHolds ([0x00#8, 0x20#8, s.cfgMfr, s.cfgProd, dev.setWidth 8, mtype, mid] ++
        [0x30#8, 0x00#8, 0x00#8, 0x00#8] ++ [v0, v1, v2] ++ bs) ∧
      t.outLen.value = some (14 + bs.length) ∧ t.status = 0x01#8) ∧
  ∀ s : State, s.dev.value = none ∨ s.ver0.value = none ∨ s.ver1.value = none ∨
      s.ver2.value = none ∨ s.mtype.value = none ∨ s.mid.value = none ∨ s.inBuf.value = none →
    ∃ r ∈ operandsRead .requestFrame, s.Unwritten r ∧
      exec .requestFrame s = .next (s.recordFault (.unwrittenOperand r))

/-- R87: CLASSIFY returns bytes 5 and 6 with STATUS OK where the message has more than 6 bytes and the
header of this protocol, and the sentinel 0xFF, 0xFF with STATUS NOT_OURS in every other case; with IN
holding no value the model records UnwrittenOperand(IN). -/
def Obligations.ClassifyReturnsTypeAndId : Prop :=
  encode .classify = 0x13#8 ∧
  (∀ (s : State) (bs : List Byte), s.InHolds bs →
    ∃ t, exec .classify s = .next t ∧ t.faults = s.faults ∧
      (IsOurs s.cfgMfr s.cfgProd bs →
        t.rtype.value.isSome = true ∧ t.rtype.value = bs[5]? ∧ t.rid.value.isSome = true ∧
          t.rid.value = bs[6]? ∧ t.status = 0x01#8) ∧
      (¬ IsOurs s.cfgMfr s.cfgProd bs →
        t.rtype.value = some 0xFF#8 ∧ t.rid.value = some 0xFF#8 ∧ t.status = 0x02#8)) ∧
  ∀ s : State, s.inBuf.value = none →
      exec .classify s = .next (s.recordFault (.unwrittenOperand .input))

/-- R88: a message of this protocol whose bytes 5 and 6 are 0xFF and a message that is not ours leave the
same RTYPE and RID, and STATUS alone tells them apart. -/
def Obligations.SentinelToldApartByStatusOnly : Prop :=
  ∀ (s s' : State) (bs bs' : List Byte), s.InHolds bs → s'.InHolds bs' →
    IsOurs s.cfgMfr s.cfgProd bs → bs[5]? = some 0xFF#8 → bs[6]? = some 0xFF#8 →
    ¬ IsOurs s'.cfgMfr s'.cfgProd bs' →
    ∃ t t', exec .classify s = .next t ∧ exec .classify s' = .next t' ∧
      t'.rtype = t.rtype ∧ t'.rid = t.rid ∧ t.status = 0x01#8 ∧ t'.status = 0x02#8

/-- R89: CLASSIFY of what FRAME or REQUEST_FRAME wrote, on a block of the same configuration, gives
RTYPE = MTYPE, RID = MID and STATUS OK, for every DEV and every payload. -/
def Obligations.ClassifyRecognisesFrames : Prop :=
  ∀ (s t u : State) (out : List Byte),
    exec .frame s = .next t ∨ exec .requestFrame s = .next t → t.faults = s.faults →
    t.OutHolds out → u.InHolds out → u.cfgMfr = s.cfgMfr → u.cfgProd = s.cfgProd →
    ∃ v, exec .classify u = .next v ∧ v.rtype.value = s.mtype.value ∧ v.rid.value = s.mid.value ∧
      v.status = 0x01#8

/-! ### PatternDecoder -/

/-- R90 and R91: STEP_DECODE writes bits 0, 2, 3, 4 of SB to ST_ON, ST_PROB, ST_FLAM, ST_REP and the number
in bits 6..5 to ST_RCNT, STATUS OK; two bytes that differ only in bits 1 and 7 give the same record; with SB
holding no value the model records UnwrittenOperand(SB). -/
def Obligations.StepDecodeReadsItsBits : Prop :=
  encode .stepDecode = 0x21#8 ∧
  (∀ (s : State) (b : Byte), s.sb.value = some b →
    ∃ t, exec .stepDecode s = .next t ∧ t.faults = s.faults ∧
      t.stOn.value = some (b.getLsbD 0) ∧ t.stProb.value = some (b.getLsbD 2) ∧
      t.stFlam.value = some (b.getLsbD 3) ∧
      t.stRep.value = some (b.getLsbD 4) ∧ t.stRcnt.value = some (BitVec.ofNat 2 (b.toNat / 32)) ∧
      t.status = 0x01#8) ∧
  (∀ b b' : Byte, b &&& 0x7D#8 = b' &&& 0x7D#8 → stepDecode b = stepDecode b') ∧
  ∀ s : State, s.sb.value = none →
    exec .stepDecode s = .next (s.recordFault (.unwrittenOperand (.operand .sb)))

/-- R94 (and R93's success), with R33 for the tracks' names: PATTERN_DECODE of a payload that passes the
guard writes `PAT_STEP[t][s]` from the byte at index `2 + 64*t + s`, for every track and step, every
`PAT_SCALAR[f]` from the bytes at the field's offset and width, and STATUS OK; the tracks a host read names
are numbered Accent 0 to Closed Hat 11. -/
def Obligations.PatternDecodeReadsRowMajor : Prop :=
  [Track.accent, .bassDrum, .snareDrum, .lowTomConga, .midTomConga, .highTomConga, .rimShotClaves,
    .handClapMaracas, .cowBell, .cymbal, .openHat, .closedHat].map Track.index =
      [0, 1, 2, 3, 4, 5, 6, 7, 8, 9, 10, 11] ∧
  ∀ (s : State) (bs : List Byte), s.InHolds bs → PassesGuard bs →
    ∃ t g v, exec .patternDecode s = .next t ∧ t.faults = s.faults ∧ t.status = 0x01#8 ∧
      t.patStep.value = some g ∧ t.patScalar.value = some v ∧
      (∀ (tr : Fin 12) (st : Fin 64) (b : Byte), bs[2 + 64 * tr.val + st.val]? = some b →
        (g[tr][st]).onOff = b.getLsbD 0 ∧ (g[tr][st]).probabilityOnOff = b.getLsbD 2 ∧
        (g[tr][st]).flamOnOff = b.getLsbD 3 ∧ (g[tr][st]).repeatOnOff = b.getLsbD 4 ∧
        (g[tr][st]).repeatCount = BitVec.ofNat 2 (b.toNat / 32)) ∧
      ∀ f : ScalarField, (v.get f).length = (Config.scalarLayout.get f).width ∧
        ∀ j, j < (Config.scalarLayout.get f).width →
          (v.get f)[j]? = bs[(Config.scalarLayout.get f).offset + j]?

/-- R92 and R97: the guard's tests in their order, the first that fails naming STATUS; after a failure no
PAT register holds a value, whatever an earlier PATTERN_DECODE left, and after a success all of them do. -/
def Obligations.PatternDecodeFailsClosed : Prop :=
  ∀ (s : State) (bs : List Byte), s.InHolds bs →
    ∃ t, exec .patternDecode s = .next t ∧ t.faults = s.faults ∧
      (bs.length ≠ 889 → t.status = 0x03#8) ∧
      (bs.length = 889 → bs[0]? ≠ some 0x00#8 → t.status = 0x04#8) ∧
      (bs.length = 889 → bs[0]? = some 0x00#8 → bs[1]? ≠ some 0x08#8 → t.status = 0x05#8) ∧
      (PassesGuard bs →
        t.status = 0x01#8 ∧ t.patStep.value.isSome = true ∧ t.patScalar.value.isSome = true) ∧
      (¬ PassesGuard bs → t.patStep.value = none ∧ t.patScalar.value = none)

/-- R95: the layout satisfies every condition the spec puts on it, so tempo begins with payload byte 804 and
entry `j` of filterSteps is exactly the `e` bytes `o + j*e .. o + (j+1)*e`, for the entry width `e`. How the
open parameter is held is the model's choice (notes/assumptions/6.md). -/
def Obligations.ScalarLayoutIsAdmitted : Prop :=
  Config.scalarLayout.Admissible ∧
  ∀ (s : State) (bs : List Byte), s.InHolds bs → PassesGuard bs →
    ∃ t v, exec .patternDecode s = .next t ∧ t.patScalar.value = some v ∧
      v.tempo[0]? = bs[804]? ∧
      ∀ j : Fin 64, (filterEntry v j).length = Config.scalarLayout.filterSteps.width / 64 ∧
        ∀ i, i < Config.scalarLayout.filterSteps.width / 64 →
          (filterEntry v j)[i]? =
            bs[Config.scalarLayout.filterSteps.offset +
              j.val * (Config.scalarLayout.filterSteps.width / 64) + i]?

/-- R98: two payloads that pass the guard and agree on the step bytes but for bits 1 and 7 give the same
PAT_STEP, and if they agree inside every scalar field the same PAT_SCALAR: indices 770..803 and those of no
scalar field are not read. -/
def Obligations.UnreadPayloadCannotMatter : Prop :=
  ∀ (s s' : State) (bs bs' : List Byte), s.InHolds bs → s'.InHolds bs' →
    PassesGuard bs → PassesGuard bs' →
    (∀ k b b', 2 ≤ k → k < 770 → bs[k]? = some b → bs'[k]? = some b' →
      b &&& 0x7D#8 = b' &&& 0x7D#8) →
    ∃ t t', exec .patternDecode s = .next t ∧ exec .patternDecode s' = .next t' ∧
      t'.patStep = t.patStep ∧
      ((∀ (f : ScalarField) (k : Nat), (Config.scalarLayout.get f).offset ≤ k →
          k < (Config.scalarLayout.get f).offset + (Config.scalarLayout.get f).width →
          bs[k]? = bs'[k]?) →
        t'.patScalar = t.patScalar)

/-- R126: the escaped form of a pattern payload has 1016 bytes, and PATTERN_DECODE of it fails with
PAT_BAD_LENGTH. -/
def Obligations.EscapedPatternIsRejected : Prop :=
  ∀ (s : State) (bs : List Byte), s.InHolds bs → bs.length = 889 →
    ∃ t e, exec .escape s = .next t ∧ t.OutHolds e ∧ e.length = 1016 ∧
      ∀ u : State, u.InHolds e →
        ∃ v, exec .patternDecode u = .next v ∧ v.status = 0x03#8 ∧ v.patStep.value = none ∧
          v.patScalar.value = none

/-! ### Completion, faults and frames -/

/-- R99, outcomes 1 and 2: an operation whose operands all hold values is performed, each of the seven of
them: it answers a next state, STATUS reports on it, and no fault is recorded. -/
def Obligations.OperationsComplete : Prop :=
  ∀ (i : Instr) (s : State), (∀ r ∈ operandsRead i, ¬ s.Unwritten r) →
    ∃ t, exec i s = .next t ∧ t.faults = s.faults ∧
      t.status ∈ [0x01#8, 0x02#8, 0x03#8, 0x04#8, 0x05#8]

/-- R21, R99 (outcome 3) and R102: an operation one of whose operands holds no value does not compute: the
model records UnwrittenOperand of such an operand, nothing else changes, and no operation records a fault
in any other case or ends in a fault. That IN counts as holding no value where IN_LEN or one of its bytes
is missing is the model's reading (notes/assumptions/12.md); that the machine goes on with the fault
recorded is that of notes/assumptions/21.md. -/
def Obligations.UnwrittenOperandsFault : Prop :=
  (∀ (i : Instr) (s : State), (∃ r ∈ operandsRead i, s.Unwritten r) →
    ∃ t, exec i s = .next t ∧ FaultRecorded i s t) ∧
  (∀ (i : Instr) (s t : State), exec i s = .next t → t.faults ≠ s.faults → FaultRecorded i s t) ∧
  ∀ (i : Instr) (s : State) (f : Fault), exec i s ≠ .fault f

/-- R102: a recorded model fault is never cleared by a later step: a step keeps the record, or adds one
UnwrittenOperand to it, and never ends in a fault (notes/assumptions/21.md). -/
def Obligations.StepKeepsRecordedFaults : Prop :=
  (∀ s t : State, step s = .next t →
    t.faults = s.faults ∨ ∃ r, t.faults = s.faults ++ [.unwrittenOperand r]) ∧
  ∀ (s : State) (f : Fault), step s ≠ .fault f

/-- R21, "A model must not substitute zero or any other value": what a step does, and everything it leaves
but the bits of registers that hold no value, does not depend on such bits. The bits reset leaves there
are the model's choice (notes/assumptions/1.md), and no outcome rests on them. -/
def Obligations.BitsWithoutValueAreInvisible : Prop :=
  ∀ s u : State, SameValues s u →
    (∀ t, step s = .next t → ∃ v, step u = .next v ∧ SameValues t v) ∧
    ∀ q, step s = .refused q → step u = .refused q

/-- R44: no operation, and no step, reads IN at or above IN_LEN; such a read would be the model fault
OutOfRange(k), and none is ever recorded. -/
def Obligations.NoReadBeyondInput : Prop :=
  (∀ (s : State) (m : Memory) (n k : Nat), s.inBuf.value = some m → s.inLen.value = some n →
    n ≤ k → s.memReadIn k = .error (.outOfRange k)) ∧
  (∀ (i : Instr) (s t : State) (k : Nat), exec i s = .next t →
    Fault.outOfRange k ∈ t.faults → Fault.outOfRange k ∈ s.faults) ∧
  ∀ (s t : State) (k : Nat), step s = .next t →
    Fault.outOfRange k ∈ t.faults → Fault.outOfRange k ∈ s.faults

/-- R99 and R100: the outcomes of an operation: it completes with OK, CLASSIFY also with NOT_OURS, or
PATTERN_DECODE fails with one of its three codes and no PAT register holds a value; or the model records
the fault of an operand that holds no value and nothing else changes. -/
def Obligations.OperationOutcomes : Prop :=
  ∀ (i : Instr) (s t : State), exec i s = .next t →
    (t.faults = s.faults ∧
      (t.status = 0x01#8 ∨ (i = .classify ∧ t.status = 0x02#8) ∨
        (i = .patternDecode ∧ (t.status = 0x03#8 ∨ t.status = 0x04#8 ∨ t.status = 0x05#8) ∧
          t.patStep.value = none ∧ t.patScalar.value = none))) ∨
    FaultRecorded i s t

/-- R105: a failure is precise: the state after a failed operation is the state before it, except STATUS and
the failing operation's own result registers, which hold no value. -/
def Obligations.FailuresArePrecise : Prop :=
  ∀ (i : Instr) (s t : State), exec i s = .next t → t.faults = s.faults →
    t.status = 0x03#8 ∨ t.status = 0x04#8 ∨ t.status = 0x05#8 →
      t = { s with status := t.status, patStep := t.patStep, patScalar := t.patScalar } ∧
        t.patStep.value = none ∧ t.patScalar.value = none

/-- R27: no operation changes an operand register; nor the configuration bytes (R34). -/
def Obligations.OperationsKeepOperands : Prop :=
  ∀ (i : Instr) (s t : State), exec i s = .next t → SameOperands s t

/-- The frame of ESCAPE, UNESCAPE, FRAME and REQUEST_FRAME (R31): they write OUT, OUT_LEN and STATUS; every
byte of IN reads as before; OUT is replaced whole, so it holds exactly the bytes below OUT_LEN. ESCAPE also
moves its own streaming registers, UNESCAPE its own, FRAME and REQUEST_FRAME neither. Where a fault is
recorded none of these is written (R99). -/
def Obligations.OutputOperationsFrame : Prop :=
  ∀ (i : Instr) (s t : State), i ∈ [Instr.escape, .unescape, .frame, .requestFrame] →
    exec i s = .next t →
    SameOperands s t ∧ SameHost s t ∧ SameClass s t ∧ SameStep s t ∧ SamePattern s t ∧
      (∀ k, t.memReadIn k = s.memReadIn k) ∧
      (t.faults = s.faults → (∃ out, t.OutHolds out) ∧ t.status = 0x01#8) ∧
      (t.faults ≠ s.faults → t.status = s.status ∧ SameOut s t ∧ SameStreams s t) ∧
      (i ≠ .unescape → t.unesc = s.unesc) ∧ (i ≠ .escape → t.esc = s.esc)

/-- The frame of CLASSIFY, STEP_DECODE and PATTERN_DECODE (R31): no byte of IN or OUT and no length changes;
each writes its own result registers and STATUS, and no streaming register. Where a fault is recorded none
of these is written (R99). -/
def Obligations.RegisterOperationsFrame : Prop :=
  ∀ (i : Instr) (s t : State), i ∈ [Instr.classify, .stepDecode, .patternDecode] →
    exec i s = .next t →
    SameOperands s t ∧ SameHost s t ∧ SameOut s t ∧ SameStreams s t ∧ SameMemory s t ∧
      (i ≠ .classify → SameClass s t) ∧ (i ≠ .stepDecode → SameStep s t) ∧
      (i ≠ .patternDecode → SamePattern s t) ∧
      (t.faults ≠ s.faults →
        t.status = s.status ∧ SameClass s t ∧ SameStep s t ∧ SamePattern s t)

/-- R38: no operation reads a result of an earlier operation: two states that agree on the operands and the
configuration give the same STATUS and the same values of the operation's own result registers. -/
def Obligations.ResultsDependOnOperandsOnly : Prop :=
  ∀ (i : Instr) (s u t : State), SameOperands s u → exec i s = .next t → t.faults = s.faults →
    ∃ v, exec i u = .next v ∧ v.faults = u.faults ∧ v.status = t.status ∧
      (i ∈ [Instr.escape, .unescape, .frame, .requestFrame] → SameOut t v) ∧
      (i = .classify → SameClass t v) ∧ (i = .stepDecode → SameStep t v) ∧
      (i = .patternDecode → SamePattern t v)

/-- R46: reading a buffer or register has no side effect on the block (the host is given a value, or the
model records that the register holds none, R102), and every operation is idempotent: issued again it
completes with the state it left, but for its streaming registers. -/
def Obligations.ReadsAndRepeatsChangeNothing : Prop :=
  (∀ (s t : State) (v : ReadView) (rest : List HostAction),
    s.pending = .read v :: rest → step s = .next t →
      (∃ x, t = { s with pending := rest, returned := s.returned ++ [x] }) ∨
      ∃ r, t = { s with pending := rest, faults := s.faults ++ [.unwrittenOperand (.result r)] }) ∧
  ∀ (i : Instr) (s t : State), exec i s = .next t → t.faults = s.faults →
    ∃ t', exec i t = .next t' ∧ { t' with unesc := t.unesc, esc := t.esc } = t

/-! ### Host actions -/

/-- R114 and R115, `LOAD IN, s`: within `P_MAX_IN` bytes IN holds exactly the sequence and nothing else
changes; a longer one is refused. -/
def Obligations.LoadFillsInput : Prop :=
  ∀ (s : State) (bs : List Byte) (rest : List HostAction), s.pending = .load bs :: rest →
    (bs.length ≤ Config.maxIn →
      ∃ t, step s = .next t ∧ t.InHolds bs ∧
        t = { s with pending := rest, inBuf := t.inBuf, inLen := t.inLen }) ∧
    (Config.maxIn < bs.length → step s = .refused (.loadTooLong bs.length))

/-- R26 and R115, `SET r, v`: DEV takes 0..15 and the other operand registers 0..255, each its own register
alone; a wider value is refused, not truncated. -/
def Obligations.SetWritesOneOperand : Prop :=
  ∀ (s : State) (r : SetReg) (v : Nat) (rest : List HostAction), s.pending = .set r v :: rest →
    (v < 16 → r = .dev → step s = .next { s with pending := rest, dev := .full (BitVec.ofNat 4 v) }) ∧
    (16 ≤ v → r = .dev → step s = .refused (.operandTooWide r v)) ∧
    (256 ≤ v → step s = .refused (.operandTooWide r v)) ∧
    (v < 256 →
      (r = .mtype → step s = .next { s with pending := rest, mtype := .full (BitVec.ofNat 8 v) }) ∧
      (r = .mid → step s = .next { s with pending := rest, mid := .full (BitVec.ofNat 8 v) }) ∧
      (r = .ver0 → step s = .next { s with pending := rest, ver0 := .full (BitVec.ofNat 8 v) }) ∧
      (r = .ver1 → step s = .next { s with pending := rest, ver1 := .full (BitVec.ofNat 8 v) }) ∧
      (r = .ver2 → step s = .next { s with pending := rest, ver2 := .full (BitVec.ofNat 8 v) }) ∧
      (r = .sb → step s = .next { s with pending := rest, sb := .full (BitVec.ofNat 8 v) }))

/-- R114, `MOVE IN, OUT` and `LOAD IN, OUT[a..b)`: IN takes OUT's bytes, or the slice of them, clamped to
OUT_LEN; nothing else changes; a longer sequence than `P_MAX_IN` is refused (R115); with OUT or OUT_LEN
holding no value the model records the fault and IN is unchanged. -/
def Obligations.MoveCopiesOutput : Prop :=
  (∀ (s : State) (bs : List Byte) (rest : List HostAction),
    s.pending = .move :: rest → s.OutHolds bs →
    (bs.length ≤ Config.maxIn →
      ∃ t, step s = .next t ∧ t.InHolds bs ∧
        t = { s with pending := rest, inBuf := t.inBuf, inLen := t.inLen }) ∧
    (Config.maxIn < bs.length → step s = .refused (.loadTooLong bs.length))) ∧
  (∀ (s : State) (bs cs : List Byte) (a b : Nat) (rest : List HostAction),
    s.pending = .loadSlice a b :: rest → s.OutHolds bs → cs.length = min b bs.length - a →
    (∀ k, k < cs.length → cs[k]? = bs[a + k]?) →
    (cs.length ≤ Config.maxIn →
      ∃ t, step s = .next t ∧ t.InHolds cs ∧
        t = { s with pending := rest, inBuf := t.inBuf, inLen := t.inLen }) ∧
    (Config.maxIn < cs.length → step s = .refused (.loadTooLong cs.length))) ∧
  ∀ (s : State) (a b : Nat) (rest : List HostAction),
    s.pending = .move :: rest ∨ s.pending = .loadSlice a b :: rest →
    s.outBuf.value = none ∨ s.outLen.value = none →
      ∃ r ∈ [ResultReg.out, .outLen],
        step s = .next ({ s with pending := rest }.recordFault (.unwrittenOperand (.result r)))

/-- R102, host reads: of a result register that holds no value the model records the fault naming it, and
nothing is returned; one that holds a value is returned, STATUS always. -/
def Obligations.HostReadsReturnOrFault : Prop :=
  ∀ (s : State) (v : ReadView) (rest : List HostAction), s.pending = .read v :: rest →
    (∀ x, s.Shows v x →
      step s = .next { s with pending := rest, returned := s.returned ++ [x] }) ∧
    ∀ r, s.Lacks v r →
      step s = .next ({ s with pending := rest }.recordFault (.unwrittenOperand (.result r)))

/-- R117, `RESET`: from every state, no operand or result register holds a value, STATUS is NONE, `U_POS`,
`E_CNT` and `E_MASK` are 0, the configuration bytes are not changed; and an operation that reads a register
holding no value, so each of the seven right after it, faults: the model records it (R21). No recorded
fault is cleared (R102). -/
def Obligations.ResetClearsRegisters : Prop :=
  ∀ (s : State) (rest : List HostAction), s.pending = .reset :: rest →
    ∃ t, step s = .next t ∧
      t.inBuf.value = none ∧ t.inLen.value = none ∧ t.dev.value = none ∧
      t.mtype.value = none ∧ t.mid.value = none ∧
      t.ver0.value = none ∧ t.ver1.value = none ∧ t.ver2.value = none ∧
      t.sb.value = none ∧ t.status = 0x00#8 ∧
      t.outBuf.value = none ∧ t.outLen.value = none ∧ t.rtype.value = none ∧ t.rid.value = none ∧
      t.stOn.value = none ∧ t.stProb.value = none ∧ t.stFlam.value = none ∧
      t.stRep.value = none ∧ t.stRcnt.value = none ∧
      t.patStep.value = none ∧ t.patScalar.value = none ∧
      t.cfgMfr = s.cfgMfr ∧ t.cfgProd = s.cfgProd ∧
      t.unesc.pos = 0#3 ∧ t.esc.cnt = 0#3 ∧ t.esc.mask = 0x00#8 ∧
      t.faults = s.faults ∧
      ∀ i : Instr, ∃ r, exec i t = .next (t.recordFault (.unwrittenOperand r))

/-- R115: what the model refuses, and nothing else: the host's next action is a `LOAD`, a `MOVE` or a slice
`LOAD` of more than `P_MAX_IN` bytes (notes/assumptions/22.md for the last two), or a `SET` of a value wider
than its register, and the refusal names that length, or that register and value. No operation is
refused. -/
def Obligations.RefusalsAreTheHosts : Prop :=
  (∀ (s : State) (q : Refusal), step s = .refused q →
    ∃ action rest, s.pending = action :: rest ∧
      ((∃ bs, action = .load bs ∧ Config.maxIn < bs.length ∧ q = .loadTooLong bs.length) ∨
       (∃ n, action = .move ∧ s.outLen.value = some n ∧ Config.maxIn < n ∧ q = .loadTooLong n) ∨
       (∃ a b n, action = .loadSlice a b ∧ s.outLen.value = some n ∧ Config.maxIn < min b n - a ∧
          q = .loadTooLong (min b n - a)) ∨
       ∃ r v, action = .set r v ∧ 2 ^ r.width ≤ v ∧ q = .operandTooWide r v)) ∧
  ∀ (i : Instr) (s : State) (q : Refusal), exec i s ≠ .refused q

/-! ### Invariants that every step keeps -/

/-- R29: no value but the seven legal ones is ever written to STATUS. -/
def Obligations.StepKeepsStatusLegal : Prop :=
  ∀ s t : State, s.StatusLegal → step s = .next t → t.StatusLegal

/-- R39: IN keeps a byte at exactly the indices below IN_LEN, OUT at exactly those below OUT_LEN, each buffer
in its one canonical form. -/
def Obligations.StepKeepsBuffersInForm : Prop :=
  ∀ s t : State, s.BuffersAgree → step s = .next t → t.BuffersAgree

/-- R25 and R31: IN never holds more than `P_MAX_IN` bytes, and an OUT of
`P_MAX_IN + ceil_div(P_MAX_IN, 7) + 14` bytes never overflows. -/
def Obligations.StepKeepsCapacity : Prop :=
  ∀ s t : State, s.WithinCapacity → step s = .next t → t.WithinCapacity

/-- R37 and R81: every operation returns the streaming registers to their start values. -/
def Obligations.StepKeepsStreamsAtRest : Prop :=
  ∀ s t : State, s.StreamsAtRest → step s = .next t → t.StreamsAtRest

/-- R34: no operation or host action changes the configuration bytes. -/
def Obligations.StepKeepsConfiguration : Prop :=
  ∀ s t : State, step s = .next t → t.cfgMfr = s.cfgMfr ∧ t.cfgProd = s.cfgProd

/-- R97: the PAT registers hold values all together or not at all, each scalar of its field's width. -/
def Obligations.StepKeepsPatternWhole : Prop :=
  ∀ s t : State, s.PatternWhole → step s = .next t → t.PatternWhole

/-- Every invariant above holds right after reset (R117). -/
def Obligations.ResetMeetsInvariants : Prop :=
  State.reset.StatusLegal ∧ State.reset.BuffersAgree ∧ State.reset.WithinCapacity ∧
    State.reset.StreamsAtRest ∧ State.reset.ConfigHardwired ∧ State.reset.PatternWhole
end

