-- ==== Sys2Proof/Laws/Sequences.lean ====
section
/-! SUPPORT. Sequences cut into groups of `d` elements, the shape ESCAPE and UNESCAPE share: the pass over
all groups, one group at a time, and induction over the groups of a sequence. -/

namespace Sys2Proof.Machine

theorem ceilDiv_zero (d : Nat) (hd : 0 < d) : ceilDiv 0 d = 0 := by
  unfold ceilDiv
  exact Nat.div_eq_of_lt (by omega)

theorem ceilDiv_add (n d : Nat) (hd : 0 < d) : ceilDiv (d + n) d = ceilDiv n d + 1 := by
  unfold ceilDiv
  rw [show d + n + d - 1 = (n + d - 1) + d by omega, Nat.add_div_right _ hd]

theorem ceilDiv_short (n d : Nat) (h0 : 0 < n) (h : n ≤ d) : ceilDiv n d = 1 := by
  unfold ceilDiv
  rw [show n + d - 1 = (n - 1) + d by omega, Nat.add_div_right _ (by omega),
    Nat.div_eq_of_lt (by omega)]

/-- `ceil_div(n, d)` is the least `q` with `q*d >= n` (R16). -/
theorem ceilDiv_le_iff (n d q : Nat) (hd : 0 < d) : ceilDiv n d ≤ q ↔ n ≤ q * d := by
  unfold ceilDiv
  rw [← Nat.lt_succ_iff, Nat.div_lt_iff_lt_mul hd, Nat.succ_mul]
  omega

theorem slice_length {α : Type} (s : List α) (a b : Nat) :
    (slice s a b).length = min b s.length - a := by
  simp [slice]

theorem slice_getElem? {α : Type} (s : List α) (a b i : Nat) :
    (slice s a b)[i]? = if a + i < b then s[a + i]? else none := by
  simp only [slice, List.getElem?_drop, List.getElem?_take]

theorem slice_zero {α : Type} (s : List α) (b : Nat) : slice s 0 b = s.take b := by
  simp [slice]

theorem slice_append_right {α : Type} (s t : List α) (a b d : Nat) (hd : s.length = d) :
    slice (s ++ t) (d + a) (d + b) = slice t a b := by
  subst hd
  simp [slice, List.take_append, List.drop_append]

/-- The pass of a function over the groups of `d` elements of a sequence. -/
def groupPass {α β : Type} (d : Nat) (f : List α → List β) (bs : List α) : List β :=
  (List.range (ceilDiv bs.length d)).flatMap fun g => f (slice bs (d * g) (d * g + d))

theorem groupPass_nil {α β : Type} (d : Nat) (hd : 0 < d) (f : List α → List β) :
    groupPass d f [] = [] := by
  simp [groupPass, ceilDiv_zero d hd]

/-- A last group of at most `d` elements is passed over at once. -/
theorem groupPass_short {α β : Type} (d : Nat) (f : List α → List β) (bs : List α)
    (h0 : 0 < bs.length) (h : bs.length ≤ d) : groupPass d f bs = f bs := by
  simp [groupPass, ceilDiv_short _ _ h0 h, slice_zero, List.take_of_length_le h]

/-- A full group is passed over first, then the rest. -/
theorem groupPass_append {α β : Type} (d : Nat) (hd : 0 < d) (f : List α → List β)
    (grp rest : List α) (h : grp.length = d) :
    groupPass d f (grp ++ rest) = f grp ++ groupPass d f rest := by
  unfold groupPass
  rw [List.length_append, h, ceilDiv_add _ _ hd, List.range_succ_eq_map, List.flatMap_cons,
    List.flatMap_map]
  congr 1
  · rw [Nat.mul_zero, Nat.zero_add, slice_zero, List.take_append_of_le_length (by omega),
      List.take_of_length_le (by omega)]
  · refine List.flatMap_congr fun g _ => ?_
    rw [Nat.succ_eq_add_one, Nat.mul_add, Nat.mul_one, Nat.add_comm (d * g) d,
      show d + d * g + d = d + (d + d * g) by omega, slice_append_right _ _ _ _ _ h]

/-- Induction over the groups of a sequence: nothing, a last group shorter than `d`, or a full group
before the rest. -/
theorem group_induction {α : Type} (d : Nat) (hd : 0 < d) {P : List α → Prop} (nil : P [])
    (short : ∀ grp, 0 < grp.length → grp.length < d → P grp)
    (full : ∀ grp rest, grp.length = d → P rest → P (grp ++ rest)) (bs : List α) : P bs := by
  generalize hn : bs.length = n
  induction n using Nat.strong_induction_on generalizing bs with
  | _ n ih =>
    rcases Nat.eq_zero_or_pos n with h0 | h0
    · rw [List.length_eq_zero_iff.1 (hn.trans h0)]; exact nil
    · by_cases h : n < d
      · exact short bs (by omega) (by omega)
      · rw [← List.take_append_drop d bs]
        exact full _ _ (by rw [List.length_take]; omega)
          (ih (n - d) (by omega) _ (by rw [List.length_drop]; omega))

end Sys2Proof.Machine
end

