-- ==== Sys2Proof/Laws/Codec.lean ====
section
/-! SUPPORT. ESCAPE and UNESCAPE one group at a time, the bits of a mask byte and the bytes of a chunk. -/

namespace Sys2Proof.Machine

theorem escape_eq_groupPass (bs : List Byte) : escape bs = groupPass 7 escapeGroup bs := rfl

theorem unescape_eq_groupPass (bs : List Byte) : unescape bs = groupPass 8 unescapeChunk bs := rfl

@[simp] theorem escape_nil : escape [] = [] := groupPass_nil 7 (by decide) _

@[simp] theorem unescape_nil : unescape [] = [] := groupPass_nil 8 (by decide) _

/-- A last group of up to 7 bytes escapes to its chunk (R70). -/
theorem escape_short (grp : List Byte) (h0 : 0 < grp.length) (h : grp.length ≤ 7) :
    escape grp = escapeGroup grp := groupPass_short 7 _ grp h0 h

/-- A full group escapes to its chunk, before the rest (R70). -/
theorem escape_append (grp rest : List Byte) (h : grp.length = 7) :
    escape (grp ++ rest) = escapeGroup grp ++ escape rest :=
  groupPass_append 7 (by decide) _ grp rest h

/-- A last chunk of up to 8 bytes decodes by itself (R72). -/
theorem unescape_short (chunk : List Byte) (h0 : 0 < chunk.length) (h : chunk.length ≤ 8) :
    unescape chunk = unescapeChunk chunk := groupPass_short 8 _ chunk h0 h

/-- A full chunk decodes by itself, before the rest (R72). -/
theorem unescape_append (chunk rest : List Byte) (h : chunk.length = 8) :
    unescape (chunk ++ rest) = unescapeChunk chunk ++ unescape rest :=
  groupPass_append 8 (by decide) _ chunk rest h

@[simp] theorem escapeGroup_length (grp : List Byte) :
    (escapeGroup grp).length = grp.length + 1 := by
  simp [escapeGroup]

@[simp] theorem unescapeChunk_cons_length (mask : Byte) (payload : List Byte) :
    (unescapeChunk (mask :: payload)).length = payload.length := by
  simp [unescapeChunk]

/-- Byte `i` of a chunk's decoding: payload byte `i` with mask bit `i` ORed into bit 7 (R72). -/
theorem unescapeChunk_getElem? (mask : Byte) (payload : List Byte) (i : Nat) :
    (unescapeChunk (mask :: payload))[i]? =
      payload[i]?.map fun p => p ||| (((mask >>> i) &&& 1#8) <<< 7) := by
  simp only [unescapeChunk, List.getElem?_map, List.getElem?_zipIdx, Option.map_map]
  cases payload[i]? <;> simp

/-- One bit moved from bit 7 of a byte to bit `k` of the mask (R70). -/
theorem maskBit_getLsbD (b : Byte) (k i : Nat) (hk : k ≤ 6) :
    ((b &&& 0x80#8) >>> (7 - k)).getLsbD i = (decide (i = k) && b.getLsbD 7) := by
  interval_cases k <;>
    · by_cases hi : i < 8
      · interval_cases i <;> simp
      · simp [BitVec.getLsbD_of_ge _ _ (Nat.le_of_not_lt hi)]
        omega

theorem foldl_mask_getLsbD (grp : List Byte) : ∀ (k : Nat) (acc : Byte) (i : Nat),
    k + grp.length ≤ 7 →
    ((grp.zipIdx k).foldl (fun m bi => m ||| ((bi.1 &&& 0x80#8) >>> (7 - bi.2))) acc).getLsbD i =
      (acc.getLsbD i || (decide (k ≤ i) && (grp[i - k]?.any fun b => b.getLsbD 7))) := by
  induction grp with
  | nil => intro k acc i _; simp
  | cons b grp ih =>
    intro k acc i h
    simp only [List.length_cons] at h
    rw [List.zipIdx_cons, List.foldl_cons, ih (k + 1) _ i (by omega), BitVec.getLsbD_or,
      maskBit_getLsbD b k i (by omega)]
    rcases Nat.lt_trichotomy i k with hlt | heq | hgt
    · have h1 : ¬ i = k := by omega
      have h2 : ¬ k + 1 ≤ i := by omega
      have h3 : ¬ k ≤ i := by omega
      simp [h1, h2, h3]
    · subst heq
      have h2 : ¬ i + 1 ≤ i := by omega
      simp
    · have h1 : ¬ i = k := by omega
      have h2 : k + 1 ≤ i := by omega
      have h3 : k ≤ i := by omega
      have h4 : i - k = (i - (k + 1)) + 1 := by omega
      rw [h4]
      simp [h1, h2, h3]

/-- Mask bit `i` is bit 7 of byte `i` of the group, and 0 where there is no such byte (R57, R70). -/
theorem escapeMask_getLsbD (grp : List Byte) (h : grp.length ≤ 7) (i : Nat) :
    (escapeMask grp).getLsbD i = grp[i]?.any fun b => b.getLsbD 7 := by
  have := foldl_mask_getLsbD grp 0 0x00#8 i (by omega)
  simpa [escapeMask] using this

end Sys2Proof.Machine
end

