-- ==== Sys2Proof/Laws/Memory.lean ====
section
/-! SUPPORT. The buffers: a read after a write, what a stored sequence reads as, and that every operation
keeps the canonical form. -/

namespace Sys2Proof.Machine

@[simp] theorem Memory.read_nil (k : Nat) : Memory.read [] k = none := rfl

/-- A read after a write of one byte: the byte written at its index, every other index as before. -/
theorem Memory.read_write (m : Memory) (k : Nat) (v : Byte) (j : Nat) :
    Memory.read (Memory.write m k v) j = if j = k then some v else Memory.read m j := by
  induction m with
  | nil => simp only [Memory.write, Memory.read, eq_comm (a := j)]
  | cons ab m ih =>
    obtain ⟨a, b⟩ := ab
    unfold Memory.write
    split
    · simp only [Memory.read, eq_comm (a := j)]
    · split
      · subst_vars
        simp only [Memory.read, eq_comm (a := j)]
        split <;> rfl
      · rename_i hka hne
        simp only [Memory.read, ih]
        by_cases haj : a = j
        · rw [if_pos haj, if_pos haj, if_neg (by omega)]
        · rw [if_neg haj, if_neg haj]

/-- A sequence stored from index `k` on: its bytes at their indices, every other index as before. -/
theorem Memory.read_writeSeq (bs : List Byte) : ∀ (m : Memory) (k j : Nat),
    Memory.read (Memory.writeSeq m k bs) j =
      if k ≤ j ∧ j < k + bs.length then bs[j - k]? else Memory.read m j := by
  induction bs with
  | nil =>
    intro m k j
    have : ¬(k ≤ j ∧ j < k) := by omega
    simp [Memory.writeSeq, this]
  | cons b bs ih =>
    intro m k j
    simp only [Memory.writeSeq, ih, Memory.read_write, List.length_cons]
    rcases Nat.lt_trichotomy j k with h | h | h
    · rw [if_neg (by omega), if_neg (by omega), if_neg (by omega)]
    · subst h; simp
    · have hj : j - k = (j - (k + 1)) + 1 := by omega
      by_cases hb : j < k + (bs.length + 1)
      · rw [if_pos (by omega), if_pos (by omega), hj, List.getElem?_cons_succ]
      · rw [if_neg (by omega), if_neg (by omega), if_neg (by omega)]

/-- A loaded buffer reads as the sequence it holds, and holds nothing beyond it. -/
@[simp] theorem Memory.read_ofBytes (bs : List Byte) (k : Nat) :
    Memory.read (Memory.ofBytes bs) k = bs[k]? := by
  rw [Memory.ofBytes, Memory.read_writeSeq]
  split
  · simp
  · simp only [Memory.read_nil]; exact (List.getElem?_eq_none (by omega)).symm

/-- Every index listed is at least `k`. -/
def Memory.from (k : Nat) (m : Memory) : Prop := ∀ ab ∈ m, k ≤ ab.1

theorem Memory.wf_cons (a : Nat) (b : Byte) (m : Memory) :
    Memory.wf ((a, b) :: m) = true ↔ Memory.wf m = true ∧ Memory.from (a + 1) m := by
  induction m generalizing a b with
  | nil => simp [Memory.wf, Memory.from]
  | cons cd m ih =>
    obtain ⟨c, d⟩ := cd
    have hcd := ih c d
    simp only [Memory.wf, Bool.and_eq_true, decide_eq_true_eq]
    constructor
    · rintro ⟨hac, hw⟩
      refine ⟨hw, fun x hx => ?_⟩
      rcases List.mem_cons.1 hx with rfl | hx
      · exact hac
      · have := (hcd.1 hw).2 x hx; omega
    · rintro ⟨hw, hf⟩
      exact ⟨hf (c, d) (by simp), hw⟩

theorem Memory.from_write {k : Nat} {m : Memory} (hm : Memory.from k m) {j : Nat} (hj : k ≤ j)
    (v : Byte) : Memory.from k (Memory.write m j v) := by
  induction m with
  | nil => intro x hx; simp [Memory.write] at hx; subst hx; exact hj
  | cons ab m ih =>
    obtain ⟨a, b⟩ := ab
    have hm' : Memory.from k m := fun x hx => hm x (List.mem_cons_of_mem _ hx)
    have ha : k ≤ a := hm (a, b) (by simp)
    intro x hx
    unfold Memory.write at hx
    split at hx
    · simp only [List.mem_cons] at hx
      rcases hx with rfl | rfl | hx
      exacts [hj, ha, hm' x hx]
    · split at hx
      · rcases List.mem_cons.1 hx with rfl | hx
        exacts [hj, hm' x hx]
      · rcases List.mem_cons.1 hx with rfl | hx
        exacts [ha, ih hm' x hx]

/-- A write of one byte keeps the canonical form. -/
theorem Memory.wf_write {m : Memory} (h : Memory.wf m = true) (k : Nat) (v : Byte) :
    Memory.wf (Memory.write m k v) = true := by
  induction m with
  | nil => rfl
  | cons ab m ih =>
    obtain ⟨a, b⟩ := ab
    have hc := (Memory.wf_cons a b m).1 h
    unfold Memory.write
    split
    · rename_i hka
      simp only [Memory.wf, Bool.and_eq_true, decide_eq_true_eq]
      exact ⟨hka, h⟩
    · split
      · rename_i hka; subst hka; exact (Memory.wf_cons k v m).2 hc
      · exact (Memory.wf_cons a b _).2 ⟨ih hc.1, Memory.from_write hc.2 (by omega) v⟩

/-- Storing a sequence keeps the canonical form. -/
theorem Memory.wf_writeSeq (bs : List Byte) : ∀ {m : Memory} (_ : Memory.wf m = true) (k : Nat),
    Memory.wf (Memory.writeSeq m k bs) = true := by
  induction bs with
  | nil => intro m h _; exact h
  | cons b bs ih => intro m h k; exact ih (Memory.wf_write h k b) (k + 1)

/-- A loaded buffer is in canonical form. -/
@[simp] theorem Memory.wf_ofBytes (bs : List Byte) : Memory.wf (Memory.ofBytes bs) = true :=
  Memory.wf_writeSeq bs rfl 0

theorem Memory.read_eq_none_of_from {k : Nat} {m : Memory} (hm : Memory.from k m) {j : Nat}
    (hj : j < k) : Memory.read m j = none := by
  induction m with
  | nil => rfl
  | cons ab m ih =>
    have ha := hm ab (by simp)
    have : ¬ab.1 = j := by omega
    simpa [Memory.read, this] using ih fun x hx => hm x (List.mem_cons_of_mem _ hx)

/-- Two canonical buffers that read alike are the same data. -/
theorem Memory.ext_of_wf {m m' : Memory} (h : Memory.wf m = true) (h' : Memory.wf m' = true)
    (hr : ∀ k, Memory.read m k = Memory.read m' k) : m = m' := by
  induction m generalizing m' with
  | nil =>
    cases m' with
    | nil => rfl
    | cons ab m' => have := hr ab.1; simp [Memory.read] at this
  | cons ab m ih =>
    obtain ⟨a, b⟩ := ab
    obtain ⟨hm, hf⟩ := (Memory.wf_cons a b m).1 h
    cases m' with
    | nil => have := hr a; simp [Memory.read] at this
    | cons cd m' =>
      obtain ⟨c, d⟩ := cd
      obtain ⟨hm', hf'⟩ := (Memory.wf_cons c d m').1 h'
      have hac : a = c := by
        rcases Nat.lt_trichotomy a c with hlt | heq | hgt
        · have hn := Memory.read_eq_none_of_from (k := c) (j := a)
            (m := (c, d) :: m') (fun x hx => by
              rcases List.mem_cons.1 hx with rfl | hx
              · exact Nat.le_refl _
              · have := hf' x hx; omega) hlt
          have := hr a; rw [hn] at this; simp [Memory.read] at this
        · exact heq
        · have hn := Memory.read_eq_none_of_from (k := a) (j := c)
            (m := (a, b) :: m) (fun x hx => by
              rcases List.mem_cons.1 hx with rfl | hx
              · exact Nat.le_refl _
              · have := hf x hx; omega) hgt
          have := hr c; rw [hn] at this; simp [Memory.read] at this
      subst hac
      have hbd : b = d := by have := hr a; simpa [Memory.read] using this
      subst hbd
      rw [ih hm hm' fun k => ?_]
      by_cases hk : k ≤ a
      · rw [Memory.read_eq_none_of_from hf (by omega), Memory.read_eq_none_of_from hf' (by omega)]
      · have := hr k
        have hne : ¬a = k := by omega
        simpa [Memory.read, hne] using this

end Sys2Proof.Machine
end

