-- ==== Sys2Proof/Laws/State.lean ====
section
/-! SUPPORT. What each named update of the state leaves in each field: one lemma per field per update, so
that no later proof unfolds a record update. -/

namespace Sys2Proof.Machine

@[simp] theorem Register.value_full {α : Type} (a : α) : (Register.full a).value = some a := rfl
@[simp] theorem Register.value_empty {α : Type} (a : α) : (Register.empty a).value = none := rfl

@[simp] theorem State.complete_inBuf (s : State) (c : StatusCode) : (s.complete c).inBuf = s.inBuf := rfl
@[simp] theorem State.complete_inLen (s : State) (c : StatusCode) : (s.complete c).inLen = s.inLen := rfl
@[simp] theorem State.complete_dev (s : State) (c : StatusCode) : (s.complete c).dev = s.dev := rfl
@[simp] theorem State.complete_mtype (s : State) (c : StatusCode) : (s.complete c).mtype = s.mtype := rfl
@[simp] theorem State.complete_mid (s : State) (c : StatusCode) : (s.complete c).mid = s.mid := rfl
@[simp] theorem State.complete_ver0 (s : State) (c : StatusCode) : (s.complete c).ver0 = s.ver0 := rfl
@[simp] theorem State.complete_ver1 (s : State) (c : StatusCode) : (s.complete c).ver1 = s.ver1 := rfl
@[simp] theorem State.complete_ver2 (s : State) (c : StatusCode) : (s.complete c).ver2 = s.ver2 := rfl
@[simp] theorem State.complete_sb (s : State) (c : StatusCode) : (s.complete c).sb = s.sb := rfl
@[simp] theorem State.complete_status (s : State) (c : StatusCode) : (s.complete c).status = c.code := rfl
@[simp] theorem State.complete_outBuf (s : State) (c : StatusCode) : (s.complete c).outBuf = s.outBuf := rfl
@[simp] theorem State.complete_outLen (s : State) (c : StatusCode) : (s.complete c).outLen = s.outLen := rfl
@[simp] theorem State.complete_rtype (s : State) (c : StatusCode) : (s.complete c).rtype = s.rtype := rfl
@[simp] theorem State.complete_rid (s : State) (c : StatusCode) : (s.complete c).rid = s.rid := rfl
@[simp] theorem State.complete_stOn (s : State) (c : StatusCode) : (s.complete c).stOn = s.stOn := rfl
@[simp] theorem State.complete_stProb (s : State) (c : StatusCode) : (s.complete c).stProb = s.stProb := rfl
@[simp] theorem State.complete_stFlam (s : State) (c : StatusCode) : (s.complete c).stFlam = s.stFlam := rfl
@[simp] theorem State.complete_stRep (s : State) (c : StatusCode) : (s.complete c).stRep = s.stRep := rfl
@[simp] theorem State.complete_stRcnt (s : State) (c : StatusCode) : (s.complete c).stRcnt = s.stRcnt := rfl
@[simp] theorem State.complete_patStep (s : State) (c : StatusCode) : (s.complete c).patStep = s.patStep := rfl
@[simp] theorem State.complete_patScalar (s : State) (c : StatusCode) : (s.complete c).patScalar = s.patScalar := rfl
@[simp] theorem State.complete_cfgMfr (s : State) (c : StatusCode) : (s.complete c).cfgMfr = s.cfgMfr := rfl
@[simp] theorem State.complete_cfgProd (s : State) (c : StatusCode) : (s.complete c).cfgProd = s.cfgProd := rfl
@[simp] theorem State.complete_unesc (s : State) (c : StatusCode) : (s.complete c).unesc = s.unesc := rfl
@[simp] theorem State.complete_esc (s : State) (c : StatusCode) : (s.complete c).esc = s.esc := rfl
@[simp] theorem State.complete_pending (s : State) (c : StatusCode) : (s.complete c).pending = s.pending := rfl
@[simp] theorem State.complete_returned (s : State) (c : StatusCode) : (s.complete c).returned = s.returned := rfl
@[simp] theorem State.complete_faults (s : State) (c : StatusCode) : (s.complete c).faults = s.faults := rfl

@[simp] theorem State.putInput_inBuf (s : State) (bs : List Byte) : (s.putInput bs).inBuf = .full (Memory.ofBytes bs) := rfl
@[simp] theorem State.putInput_inLen (s : State) (bs : List Byte) : (s.putInput bs).inLen = .full bs.length := rfl
@[simp] theorem State.putInput_dev (s : State) (bs : List Byte) : (s.putInput bs).dev = s.dev := rfl
@[simp] theorem State.putInput_mtype (s : State) (bs : List Byte) : (s.putInput bs).mtype = s.mtype := rfl
@[simp] theorem State.putInput_mid (s : State) (bs : List Byte) : (s.putInput bs).mid = s.mid := rfl
@[simp] theorem State.putInput_ver0 (s : State) (bs : List Byte) : (s.putInput bs).ver0 = s.ver0 := rfl
@[simp] theorem State.putInput_ver1 (s : State) (bs : List Byte) : (s.putInput bs).ver1 = s.ver1 := rfl
@[simp] theorem State.putInput_ver2 (s : State) (bs : List Byte) : (s.putInput bs).ver2 = s.ver2 := rfl
@[simp] theorem State.putInput_sb (s : State) (bs : List Byte) : (s.putInput bs).sb = s.sb := rfl
@[simp] theorem State.putInput_status (s : State) (bs : List Byte) : (s.putInput bs).status = s.status := rfl
@[simp] theorem State.putInput_outBuf (s : State) (bs : List Byte) : (s.putInput bs).outBuf = s.outBuf := rfl
@[simp] theorem State.putInput_outLen (s : State) (bs : List Byte) : (s.putInput bs).outLen = s.outLen := rfl
@[simp] theorem State.putInput_rtype (s : State) (bs : List Byte) : (s.putInput bs).rtype = s.rtype := rfl
@[simp] theorem State.putInput_rid (s : State) (bs : List Byte) : (s.putInput bs).rid = s.rid := rfl
@[simp] theorem State.putInput_stOn (s : State) (bs : List Byte) : (s.putInput bs).stOn = s.stOn := rfl
@[simp] theorem State.putInput_stProb (s : State) (bs : List Byte) : (s.putInput bs).stProb = s.stProb := rfl
@[simp] theorem State.putInput_stFlam (s : State) (bs : List Byte) : (s.putInput bs).stFlam = s.stFlam := rfl
@[simp] theorem State.putInput_stRep (s : State) (bs : List Byte) : (s.putInput bs).stRep = s.stRep := rfl
@[simp] theorem State.putInput_stRcnt (s : State) (bs : List Byte) : (s.putInput bs).stRcnt = s.stRcnt := rfl
@[simp] theorem State.putInput_patStep (s : State) (bs : List Byte) : (s.putInput bs).patStep = s.patStep := rfl
@[simp] theorem State.putInput_patScalar (s : State) (bs : List Byte) : (s.putInput bs).patScalar = s.patScalar := rfl
@[simp] theorem State.putInput_cfgMfr (s : State) (bs : List Byte) : (s.putInput bs).cfgMfr = s.cfgMfr := rfl
@[simp] theorem State.putInput_cfgProd (s : State) (bs : List Byte) : (s.putInput bs).cfgProd = s.cfgProd := rfl
@[simp] theorem State.putInput_unesc (s : State) (bs : List Byte) : (s.putInput bs).unesc = s.unesc := rfl
@[simp] theorem State.putInput_esc (s : State) (bs : List Byte) : (s.putInput bs).esc = s.esc := rfl
@[simp] theorem State.putInput_pending (s : State) (bs : List Byte) : (s.putInput bs).pending = s.pending := rfl
@[simp] theorem State.putInput_returned (s : State) (bs : List Byte) : (s.putInput bs).returned = s.returned := rfl
@[simp] theorem State.putInput_faults (s : State) (bs : List Byte) : (s.putInput bs).faults = s.faults := rfl

@[simp] theorem State.putOutput_inBuf (s : State) (bs : List Byte) : (s.putOutput bs).inBuf = s.inBuf := rfl
@[simp] theorem State.putOutput_inLen (s : State) (bs : List Byte) : (s.putOutput bs).inLen = s.inLen := rfl
@[simp] theorem State.putOutput_dev (s : State) (bs : List Byte) : (s.putOutput bs).dev = s.dev := rfl
@[simp] theorem State.putOutput_mtype (s : State) (bs : List Byte) : (s.putOutput bs).mtype = s.mtype := rfl
@[simp] theorem State.putOutput_mid (s : State) (bs : List Byte) : (s.putOutput bs).mid = s.mid := rfl
@[simp] theorem State.putOutput_ver0 (s : State) (bs : List Byte) : (s.putOutput bs).ver0 = s.ver0 := rfl
@[simp] theorem State.putOutput_ver1 (s : State) (bs : List Byte) : (s.putOutput bs).ver1 = s.ver1 := rfl
@[simp] theorem State.putOutput_ver2 (s : State) (bs : List Byte) : (s.putOutput bs).ver2 = s.ver2 := rfl
@[simp] theorem State.putOutput_sb (s : State) (bs : List Byte) : (s.putOutput bs).sb = s.sb := rfl
@[simp] theorem State.putOutput_status (s : State) (bs : List Byte) : (s.putOutput bs).status = s.status := rfl
@[simp] theorem State.putOutput_outBuf (s : State) (bs : List Byte) : (s.putOutput bs).outBuf = .full (Memory.ofBytes bs) := rfl
@[simp] theorem State.putOutput_outLen (s : State) (bs : List Byte) : (s.putOutput bs).outLen = .full bs.length := rfl
@[simp] theorem State.putOutput_rtype (s : State) (bs : List Byte) : (s.putOutput bs).rtype = s.rtype := rfl
@[simp] theorem State.putOutput_rid (s : State) (bs : List Byte) : (s.putOutput bs).rid = s.rid := rfl
@[simp] theorem State.putOutput_stOn (s : State) (bs : List Byte) : (s.putOutput bs).stOn = s.stOn := rfl
@[simp] theorem State.putOutput_stProb (s : State) (bs : List Byte) : (s.putOutput bs).stProb = s.stProb := rfl
@[simp] theorem State.putOutput_stFlam (s : State) (bs : List Byte) : (s.putOutput bs).stFlam = s.stFlam := rfl
@[simp] theorem State.putOutput_stRep (s : State) (bs : List Byte) : (s.putOutput bs).stRep = s.stRep := rfl
@[simp] theorem State.putOutput_stRcnt (s : State) (bs : List Byte) : (s.putOutput bs).stRcnt = s.stRcnt := rfl
@[simp] theorem State.putOutput_patStep (s : State) (bs : List Byte) : (s.putOutput bs).patStep = s.patStep := rfl
@[simp] theorem State.putOutput_patScalar (s : State) (bs : List Byte) : (s.putOutput bs).patScalar = s.patScalar := rfl
@[simp] theorem State.putOutput_cfgMfr (s : State) (bs : List Byte) : (s.putOutput bs).cfgMfr = s.cfgMfr := rfl
@[simp] theorem State.putOutput_cfgProd (s : State) (bs : List Byte) : (s.putOutput bs).cfgProd = s.cfgProd := rfl
@[simp] theorem State.putOutput_unesc (s : State) (bs : List Byte) : (s.putOutput bs).unesc = s.unesc := rfl
@[simp] theorem State.putOutput_esc (s : State) (bs : List Byte) : (s.putOutput bs).esc = s.esc := rfl
@[simp] theorem State.putOutput_pending (s : State) (bs : List Byte) : (s.putOutput bs).pending = s.pending := rfl
@[simp] theorem State.putOutput_returned (s : State) (bs : List Byte) : (s.putOutput bs).returned = s.returned := rfl
@[simp] theorem State.putOutput_faults (s : State) (bs : List Byte) : (s.putOutput bs).faults = s.faults := rfl

@[simp] theorem State.putClass_inBuf (s : State) (ti : Byte × Byte) : (s.putClass ti).inBuf = s.inBuf := rfl
@[simp] theorem State.putClass_inLen (s : State) (ti : Byte × Byte) : (s.putClass ti).inLen = s.inLen := rfl
@[simp] theorem State.putClass_dev (s : State) (ti : Byte × Byte) : (s.putClass ti).dev = s.dev := rfl
@[simp] theorem State.putClass_mtype (s : State) (ti : Byte × Byte) : (s.putClass ti).mtype = s.mtype := rfl
@[simp] theorem State.putClass_mid (s : State) (ti : Byte × Byte) : (s.putClass ti).mid = s.mid := rfl
@[simp] theorem State.putClass_ver0 (s : State) (ti : Byte × Byte) : (s.putClass ti).ver0 = s.ver0 := rfl
@[simp] theorem State.putClass_ver1 (s : State) (ti : Byte × Byte) : (s.putClass ti).ver1 = s.ver1 := rfl
@[simp] theorem State.putClass_ver2 (s : State) (ti : Byte × Byte) : (s.putClass ti).ver2 = s.ver2 := rfl
@[simp] theorem State.putClass_sb (s : State) (ti : Byte × Byte) : (s.putClass ti).sb = s.sb := rfl
@[simp] theorem State.putClass_status (s : State) (ti : Byte × Byte) : (s.putClass ti).status = s.status := rfl
@[simp] theorem State.putClass_outBuf (s : State) (ti : Byte × Byte) : (s.putClass ti).outBuf = s.outBuf := rfl
@[simp] theorem State.putClass_outLen (s : State) (ti : Byte × Byte) : (s.putClass ti).outLen = s.outLen := rfl
@[simp] theorem State.putClass_rtype (s : State) (ti : Byte × Byte) : (s.putClass ti).rtype = .full ti.1 := rfl
@[simp] theorem State.putClass_rid (s : State) (ti : Byte × Byte) : (s.putClass ti).rid = .full ti.2 := rfl
@[simp] theorem State.putClass_stOn (s : State) (ti : Byte × Byte) : (s.putClass ti).stOn = s.stOn := rfl
@[simp] theorem State.putClass_stProb (s : State) (ti : Byte × Byte) : (s.putClass ti).stProb = s.stProb := rfl
@[simp] theorem State.putClass_stFlam (s : State) (ti : Byte × Byte) : (s.putClass ti).stFlam = s.stFlam := rfl
@[simp] theorem State.putClass_stRep (s : State) (ti : Byte × Byte) : (s.putClass ti).stRep = s.stRep := rfl
@[simp] theorem State.putClass_stRcnt (s : State) (ti : Byte × Byte) : (s.putClass ti).stRcnt = s.stRcnt := rfl
@[simp] theorem State.putClass_patStep (s : State) (ti : Byte × Byte) : (s.putClass ti).patStep = s.patStep := rfl
@[simp] theorem State.putClass_patScalar (s : State) (ti : Byte × Byte) : (s.putClass ti).patScalar = s.patScalar := rfl
@[simp] theorem State.putClass_cfgMfr (s : State) (ti : Byte × Byte) : (s.putClass ti).cfgMfr = s.cfgMfr := rfl
@[simp] theorem State.putClass_cfgProd (s : State) (ti : Byte × Byte) : (s.putClass ti).cfgProd = s.cfgProd := rfl
@[simp] theorem State.putClass_unesc (s : State) (ti : Byte × Byte) : (s.putClass ti).unesc = s.unesc := rfl
@[simp] theorem State.putClass_esc (s : State) (ti : Byte × Byte) : (s.putClass ti).esc = s.esc := rfl
@[simp] theorem State.putClass_pending (s : State) (ti : Byte × Byte) : (s.putClass ti).pending = s.pending := rfl
@[simp] theorem State.putClass_returned (s : State) (ti : Byte × Byte) : (s.putClass ti).returned = s.returned := rfl
@[simp] theorem State.putClass_faults (s : State) (ti : Byte × Byte) : (s.putClass ti).faults = s.faults := rfl

@[simp] theorem State.putStep_inBuf (s : State) (d : StepData) : (s.putStep d).inBuf = s.inBuf := rfl
@[simp] theorem State.putStep_inLen (s : State) (d : StepData) : (s.putStep d).inLen = s.inLen := rfl
@[simp] theorem State.putStep_dev (s : State) (d : StepData) : (s.putStep d).dev = s.dev := rfl
@[simp] theorem State.putStep_mtype (s : State) (d : StepData) : (s.putStep d).mtype = s.mtype := rfl
@[simp] theorem State.putStep_mid (s : State) (d : StepData) : (s.putStep d).mid = s.mid := rfl
@[simp] theorem State.putStep_ver0 (s : State) (d : StepData) : (s.putStep d).ver0 = s.ver0 := rfl
@[simp] theorem State.putStep_ver1 (s : State) (d : StepData) : (s.putStep d).ver1 = s.ver1 := rfl
@[simp] theorem State.putStep_ver2 (s : State) (d : StepData) : (s.putStep d).ver2 = s.ver2 := rfl
@[simp] theorem State.putStep_sb (s : State) (d : StepData) : (s.putStep d).sb = s.sb := rfl
@[simp] theorem State.putStep_status (s : State) (d : StepData) : (s.putStep d).status = s.status := rfl
@[simp] theorem State.putStep_outBuf (s : State) (d : StepData) : (s.putStep d).outBuf = s.outBuf := rfl
@[simp] theorem State.putStep_outLen (s : State) (d : StepData) : (s.putStep d).outLen = s.outLen := rfl
@[simp] theorem State.putStep_rtype (s : State) (d : StepData) : (s.putStep d).rtype = s.rtype := rfl
@[simp] theorem State.putStep_rid (s : State) (d : StepData) : (s.putStep d).rid = s.rid := rfl
@[simp] theorem State.putStep_stOn (s : State) (d : StepData) : (s.putStep d).stOn = .full d.onOff := rfl
@[simp] theorem State.putStep_stProb (s : State) (d : StepData) : (s.putStep d).stProb = .full d.probabilityOnOff := rfl
@[simp] theorem State.putStep_stFlam (s : State) (d : StepData) : (s.putStep d).stFlam = .full d.flamOnOff := rfl
@[simp] theorem State.putStep_stRep (s : State) (d : StepData) : (s.putStep d).stRep = .full d.repeatOnOff := rfl
@[simp] theorem State.putStep_stRcnt (s : State) (d : StepData) : (s.putStep d).stRcnt = .full d.repeatCount := rfl
@[simp] theorem State.putStep_patStep (s : State) (d : StepData) : (s.putStep d).patStep = s.patStep := rfl
@[simp] theorem State.putStep_patScalar (s : State) (d : StepData) : (s.putStep d).patScalar = s.patScalar := rfl
@[simp] theorem State.putStep_cfgMfr (s : State) (d : StepData) : (s.putStep d).cfgMfr = s.cfgMfr := rfl
@[simp] theorem State.putStep_cfgProd (s : State) (d : StepData) : (s.putStep d).cfgProd = s.cfgProd := rfl
@[simp] theorem State.putStep_unesc (s : State) (d : StepData) : (s.putStep d).unesc = s.unesc := rfl
@[simp] theorem State.putStep_esc (s : State) (d : StepData) : (s.putStep d).esc = s.esc := rfl
@[simp] theorem State.putStep_pending (s : State) (d : StepData) : (s.putStep d).pending = s.pending := rfl
@[simp] theorem State.putStep_returned (s : State) (d : StepData) : (s.putStep d).returned = s.returned := rfl
@[simp] theorem State.putStep_faults (s : State) (d : StepData) : (s.putStep d).faults = s.faults := rfl

@[simp] theorem State.putPattern_inBuf (s : State) (g : StepGrid) (v : Scalars) : (s.putPattern g v).inBuf = s.inBuf := rfl
@[simp] theorem State.putPattern_inLen (s : State) (g : StepGrid) (v : Scalars) : (s.putPattern g v).inLen = s.inLen := rfl
@[simp] theorem State.putPattern_dev (s : State) (g : StepGrid) (v : Scalars) : (s.putPattern g v).dev = s.dev := rfl
@[simp] theorem State.putPattern_mtype (s : State) (g : StepGrid) (v : Scalars) : (s.putPattern g v).mtype = s.mtype := rfl
@[simp] theorem State.putPattern_mid (s : State) (g : StepGrid) (v : Scalars) : (s.putPattern g v).mid = s.mid := rfl
@[simp] theorem State.putPattern_ver0 (s : State) (g : StepGrid) (v : Scalars) : (s.putPattern g v).ver0 = s.ver0 := rfl
@[simp] theorem State.putPattern_ver1 (s : State) (g : StepGrid) (v : Scalars) : (s.putPattern g v).ver1 = s.ver1 := rfl
@[simp] theorem State.putPattern_ver2 (s : State) (g : StepGrid) (v : Scalars) : (s.putPattern g v).ver2 = s.ver2 := rfl
@[simp] theorem State.putPattern_sb (s : State) (g : StepGrid) (v : Scalars) : (s.putPattern g v).sb = s.sb := rfl
@[simp] theorem State.putPattern_status (s : State) (g : StepGrid) (v : Scalars) : (s.putPattern g v).status = s.status := rfl
@[simp] theorem State.putPattern_outBuf (s : State) (g : StepGrid) (v : Scalars) : (s.putPattern g v).outBuf = s.outBuf := rfl
@[simp] theorem State.putPattern_outLen (s : State) (g : StepGrid) (v : Scalars) : (s.putPattern g v).outLen = s.outLen := rfl
@[simp] theorem State.putPattern_rtype (s : State) (g : StepGrid) (v : Scalars) : (s.putPattern g v).rtype = s.rtype := rfl
@[simp] theorem State.putPattern_rid (s : State) (g : StepGrid) (v : Scalars) : (s.putPattern g v).rid = s.rid := rfl
@[simp] theorem State.putPattern_stOn (s : State) (g : StepGrid) (v : Scalars) : (s.putPattern g v).stOn = s.stOn := rfl
@[simp] theorem State.putPattern_stProb (s : State) (g : StepGrid) (v : Scalars) : (s.putPattern g v).stProb = s.stProb := rfl
@[simp] theorem State.putPattern_stFlam (s : State) (g : StepGrid) (v : Scalars) : (s.putPattern g v).stFlam = s.stFlam := rfl
@[simp] theorem State.putPattern_stRep (s : State) (g : StepGrid) (v : Scalars) : (s.putPattern g v).stRep = s.stRep := rfl
@[simp] theorem State.putPattern_stRcnt (s : State) (g : StepGrid) (v : Scalars) : (s.putPattern g v).stRcnt = s.stRcnt := rfl
@[simp] theorem State.putPattern_patStep (s : State) (g : StepGrid) (v : Scalars) : (s.putPattern g v).patStep = .full g := rfl
@[simp] theorem State.putPattern_patScalar (s : State) (g : StepGrid) (v : Scalars) : (s.putPattern g v).patScalar = .full v := rfl
@[simp] theorem State.putPattern_cfgMfr (s : State) (g : StepGrid) (v : Scalars) : (s.putPattern g v).cfgMfr = s.cfgMfr := rfl
@[simp] theorem State.putPattern_cfgProd (s : State) (g : StepGrid) (v : Scalars) : (s.putPattern g v).cfgProd = s.cfgProd := rfl
@[simp] theorem State.putPattern_unesc (s : State) (g : StepGrid) (v : Scalars) : (s.putPattern g v).unesc = s.unesc := rfl
@[simp] theorem State.putPattern_esc (s : State) (g : StepGrid) (v : Scalars) : (s.putPattern g v).esc = s.esc := rfl
@[simp] theorem State.putPattern_pending (s : State) (g : StepGrid) (v : Scalars) : (s.putPattern g v).pending = s.pending := rfl
@[simp] theorem State.putPattern_returned (s : State) (g : StepGrid) (v : Scalars) : (s.putPattern g v).returned = s.returned := rfl
@[simp] theorem State.putPattern_faults (s : State) (g : StepGrid) (v : Scalars) : (s.putPattern g v).faults = s.faults := rfl

@[simp] theorem State.clearPattern_inBuf (s : State) : s.clearPattern.inBuf = s.inBuf := rfl
@[simp] theorem State.clearPattern_inLen (s : State) : s.clearPattern.inLen = s.inLen := rfl
@[simp] theorem State.clearPattern_dev (s : State) : s.clearPattern.dev = s.dev := rfl
@[simp] theorem State.clearPattern_mtype (s : State) : s.clearPattern.mtype = s.mtype := rfl
@[simp] theorem State.clearPattern_mid (s : State) : s.clearPattern.mid = s.mid := rfl
@[simp] theorem State.clearPattern_ver0 (s : State) : s.clearPattern.ver0 = s.ver0 := rfl
@[simp] theorem State.clearPattern_ver1 (s : State) : s.clearPattern.ver1 = s.ver1 := rfl
@[simp] theorem State.clearPattern_ver2 (s : State) : s.clearPattern.ver2 = s.ver2 := rfl
@[simp] theorem State.clearPattern_sb (s : State) : s.clearPattern.sb = s.sb := rfl
@[simp] theorem State.clearPattern_status (s : State) : s.clearPattern.status = s.status := rfl
@[simp] theorem State.clearPattern_outBuf (s : State) : s.clearPattern.outBuf = s.outBuf := rfl
@[simp] theorem State.clearPattern_outLen (s : State) : s.clearPattern.outLen = s.outLen := rfl
@[simp] theorem State.clearPattern_rtype (s : State) : s.clearPattern.rtype = s.rtype := rfl
@[simp] theorem State.clearPattern_rid (s : State) : s.clearPattern.rid = s.rid := rfl
@[simp] theorem State.clearPattern_stOn (s : State) : s.clearPattern.stOn = s.stOn := rfl
@[simp] theorem State.clearPattern_stProb (s : State) : s.clearPattern.stProb = s.stProb := rfl
@[simp] theorem State.clearPattern_stFlam (s : State) : s.clearPattern.stFlam = s.stFlam := rfl
@[simp] theorem State.clearPattern_stRep (s : State) : s.clearPattern.stRep = s.stRep := rfl
@[simp] theorem State.clearPattern_stRcnt (s : State) : s.clearPattern.stRcnt = s.stRcnt := rfl
@[simp] theorem State.clearPattern_patStep (s : State) : s.clearPattern.patStep = State.reset.patStep := rfl
@[simp] theorem State.clearPattern_patScalar (s : State) : s.clearPattern.patScalar = State.reset.patScalar := rfl
@[simp] theorem State.clearPattern_cfgMfr (s : State) : s.clearPattern.cfgMfr = s.cfgMfr := rfl
@[simp] theorem State.clearPattern_cfgProd (s : State) : s.clearPattern.cfgProd = s.cfgProd := rfl
@[simp] theorem State.clearPattern_unesc (s : State) : s.clearPattern.unesc = s.unesc := rfl
@[simp] theorem State.clearPattern_esc (s : State) : s.clearPattern.esc = s.esc := rfl
@[simp] theorem State.clearPattern_pending (s : State) : s.clearPattern.pending = s.pending := rfl
@[simp] theorem State.clearPattern_returned (s : State) : s.clearPattern.returned = s.returned := rfl
@[simp] theorem State.clearPattern_faults (s : State) : s.clearPattern.faults = s.faults := rfl

@[simp] theorem State.putUnesc_inBuf (s : State) (u : UnescapeUnit) : (s.putUnesc u).inBuf = s.inBuf := rfl
@[simp] theorem State.putUnesc_inLen (s : State) (u : UnescapeUnit) : (s.putUnesc u).inLen = s.inLen := rfl
@[simp] theorem State.putUnesc_dev (s : State) (u : UnescapeUnit) : (s.putUnesc u).dev = s.dev := rfl
@[simp] theorem State.putUnesc_mtype (s : State) (u : UnescapeUnit) : (s.putUnesc u).mtype = s.mtype := rfl
@[simp] theorem State.putUnesc_mid (s : State) (u : UnescapeUnit) : (s.putUnesc u).mid = s.mid := rfl
@[simp] theorem State.putUnesc_ver0 (s : State) (u : UnescapeUnit) : (s.putUnesc u).ver0 = s.ver0 := rfl
@[simp] theorem State.putUnesc_ver1 (s : State) (u : UnescapeUnit) : (s.putUnesc u).ver1 = s.ver1 := rfl
@[simp] theorem State.putUnesc_ver2 (s : State) (u : UnescapeUnit) : (s.putUnesc u).ver2 = s.ver2 := rfl
@[simp] theorem State.putUnesc_sb (s : State) (u : UnescapeUnit) : (s.putUnesc u).sb = s.sb := rfl
@[simp] theorem State.putUnesc_status (s : State) (u : UnescapeUnit) : (s.putUnesc u).status = s.status := rfl
@[simp] theorem State.putUnesc_outBuf (s : State) (u : UnescapeUnit) : (s.putUnesc u).outBuf = s.outBuf := rfl
@[simp] theorem State.putUnesc_outLen (s : State) (u : UnescapeUnit) : (s.putUnesc u).outLen = s.outLen := rfl
@[simp] theorem State.putUnesc_rtype (s : State) (u : UnescapeUnit) : (s.putUnesc u).rtype = s.rtype := rfl
@[simp] theorem State.putUnesc_rid (s : State) (u : UnescapeUnit) : (s.putUnesc u).rid = s.rid := rfl
@[simp] theorem State.putUnesc_stOn (s : State) (u : UnescapeUnit) : (s.putUnesc u).stOn = s.stOn := rfl
@[simp] theorem State.putUnesc_stProb (s : State) (u : UnescapeUnit) : (s.putUnesc u).stProb = s.stProb := rfl
@[simp] theorem State.putUnesc_stFlam (s : State) (u : UnescapeUnit) : (s.putUnesc u).stFlam = s.stFlam := rfl
@[simp] theorem State.putUnesc_stRep (s : State) (u : UnescapeUnit) : (s.putUnesc u).stRep = s.stRep := rfl
@[simp] theorem State.putUnesc_stRcnt (s : State) (u : UnescapeUnit) : (s.putUnesc u).stRcnt = s.stRcnt := rfl
@[simp] theorem State.putUnesc_patStep (s : State) (u : UnescapeUnit) : (s.putUnesc u).patStep = s.patStep := rfl
@[simp] theorem State.putUnesc_patScalar (s : State) (u : UnescapeUnit) : (s.putUnesc u).patScalar = s.patScalar := rfl
@[simp] theorem State.putUnesc_cfgMfr (s : State) (u : UnescapeUnit) : (s.putUnesc u).cfgMfr = s.cfgMfr := rfl
@[simp] theorem State.putUnesc_cfgProd (s : State) (u : UnescapeUnit) : (s.putUnesc u).cfgProd = s.cfgProd := rfl
@[simp] theorem State.putUnesc_unesc (s : State) (u : UnescapeUnit) : (s.putUnesc u).unesc = u := rfl
@[simp] theorem State.putUnesc_esc (s : State) (u : UnescapeUnit) : (s.putUnesc u).esc = s.esc := rfl
@[simp] theorem State.putUnesc_pending (s : State) (u : UnescapeUnit) : (s.putUnesc u).pending = s.pending := rfl
@[simp] theorem State.putUnesc_returned (s : State) (u : UnescapeUnit) : (s.putUnesc u).returned = s.returned := rfl
@[simp] theorem State.putUnesc_faults (s : State) (u : UnescapeUnit) : (s.putUnesc u).faults = s.faults := rfl

@[simp] theorem State.putEsc_inBuf (s : State) (e : EscapeUnit) : (s.putEsc e).inBuf = s.inBuf := rfl
@[simp] theorem State.putEsc_inLen (s : State) (e : EscapeUnit) : (s.putEsc e).inLen = s.inLen := rfl
@[simp] theorem State.putEsc_dev (s : State) (e : EscapeUnit) : (s.putEsc e).dev = s.dev := rfl
@[simp] theorem State.putEsc_mtype (s : State) (e : EscapeUnit) : (s.putEsc e).mtype = s.mtype := rfl
@[simp] theorem State.putEsc_mid (s : State) (e : EscapeUnit) : (s.putEsc e).mid = s.mid := rfl
@[simp] theorem State.putEsc_ver0 (s : State) (e : EscapeUnit) : (s.putEsc e).ver0 = s.ver0 := rfl
@[simp] theorem State.putEsc_ver1 (s : State) (e : EscapeUnit) : (s.putEsc e).ver1 = s.ver1 := rfl
@[simp] theorem State.putEsc_ver2 (s : State) (e : EscapeUnit) : (s.putEsc e).ver2 = s.ver2 := rfl
@[simp] theorem State.putEsc_sb (s : State) (e : EscapeUnit) : (s.putEsc e).sb = s.sb := rfl
@[simp] theorem State.putEsc_status (s : State) (e : EscapeUnit) : (s.putEsc e).status = s.status := rfl
@[simp] theorem State.putEsc_outBuf (s : State) (e : EscapeUnit) : (s.putEsc e).outBuf = s.outBuf := rfl
@[simp] theorem State.putEsc_outLen (s : State) (e : EscapeUnit) : (s.putEsc e).outLen = s.outLen := rfl
@[simp] theorem State.putEsc_rtype (s : State) (e : EscapeUnit) : (s.putEsc e).rtype = s.rtype := rfl
@[simp] theorem State.putEsc_rid (s : State) (e : EscapeUnit) : (s.putEsc e).rid = s.rid := rfl
@[simp] theorem State.putEsc_stOn (s : State) (e : EscapeUnit) : (s.putEsc e).stOn = s.stOn := rfl
@[simp] theorem State.putEsc_stProb (s : State) (e : EscapeUnit) : (s.putEsc e).stProb = s.stProb := rfl
@[simp] theorem State.putEsc_stFlam (s : State) (e : EscapeUnit) : (s.putEsc e).stFlam = s.stFlam := rfl
@[simp] theorem State.putEsc_stRep (s : State) (e : EscapeUnit) : (s.putEsc e).stRep = s.stRep := rfl
@[simp] theorem State.putEsc_stRcnt (s : State) (e : EscapeUnit) : (s.putEsc e).stRcnt = s.stRcnt := rfl
@[simp] theorem State.putEsc_patStep (s : State) (e : EscapeUnit) : (s.putEsc e).patStep = s.patStep := rfl
@[simp] theorem State.putEsc_patScalar (s : State) (e : EscapeUnit) : (s.putEsc e).patScalar = s.patScalar := rfl
@[simp] theorem State.putEsc_cfgMfr (s : State) (e : EscapeUnit) : (s.putEsc e).cfgMfr = s.cfgMfr := rfl
@[simp] theorem State.putEsc_cfgProd (s : State) (e : EscapeUnit) : (s.putEsc e).cfgProd = s.cfgProd := rfl
@[simp] theorem State.putEsc_unesc (s : State) (e : EscapeUnit) : (s.putEsc e).unesc = s.unesc := rfl
@[simp] theorem State.putEsc_esc (s : State) (e : EscapeUnit) : (s.putEsc e).esc = e := rfl
@[simp] theorem State.putEsc_pending (s : State) (e : EscapeUnit) : (s.putEsc e).pending = s.pending := rfl
@[simp] theorem State.putEsc_returned (s : State) (e : EscapeUnit) : (s.putEsc e).returned = s.returned := rfl
@[simp] theorem State.putEsc_faults (s : State) (e : EscapeUnit) : (s.putEsc e).faults = s.faults := rfl

@[simp] theorem State.dequeue_inBuf (s : State) (rest : List HostAction) : (s.dequeue rest).inBuf = s.inBuf := rfl
@[simp] theorem State.dequeue_inLen (s : State) (rest : List HostAction) : (s.dequeue rest).inLen = s.inLen := rfl
@[simp] theorem State.dequeue_dev (s : State) (rest : List HostAction) : (s.dequeue rest).dev = s.dev := rfl
@[simp] theorem State.dequeue_mtype (s : State) (rest : List HostAction) : (s.dequeue rest).mtype = s.mtype := rfl
@[simp] theorem State.dequeue_mid (s : State) (rest : List HostAction) : (s.dequeue rest).mid = s.mid := rfl
@[simp] theorem State.dequeue_ver0 (s : State) (rest : List HostAction) : (s.dequeue rest).ver0 = s.ver0 := rfl
@[simp] theorem State.dequeue_ver1 (s : State) (rest : List HostAction) : (s.dequeue rest).ver1 = s.ver1 := rfl
@[simp] theorem State.dequeue_ver2 (s : State) (rest : List HostAction) : (s.dequeue rest).ver2 = s.ver2 := rfl
@[simp] theorem State.dequeue_sb (s : State) (rest : List HostAction) : (s.dequeue rest).sb = s.sb := rfl
@[simp] theorem State.dequeue_status (s : State) (rest : List HostAction) : (s.dequeue rest).status = s.status := rfl
@[simp] theorem State.dequeue_outBuf (s : State) (rest : List HostAction) : (s.dequeue rest).outBuf = s.outBuf := rfl
@[simp] theorem State.dequeue_outLen (s : State) (rest : List HostAction) : (s.dequeue rest).outLen = s.outLen := rfl
@[simp] theorem State.dequeue_rtype (s : State) (rest : List HostAction) : (s.dequeue rest).rtype = s.rtype := rfl
@[simp] theorem State.dequeue_rid (s : State) (rest : List HostAction) : (s.dequeue rest).rid = s.rid := rfl
@[simp] theorem State.dequeue_stOn (s : State) (rest : List HostAction) : (s.dequeue rest).stOn = s.stOn := rfl
@[simp] theorem State.dequeue_stProb (s : State) (rest : List HostAction) : (s.dequeue rest).stProb = s.stProb := rfl
@[simp] theorem State.dequeue_stFlam (s : State) (rest : List HostAction) : (s.dequeue rest).stFlam = s.stFlam := rfl
@[simp] theorem State.dequeue_stRep (s : State) (rest : List HostAction) : (s.dequeue rest).stRep = s.stRep := rfl
@[simp] theorem State.dequeue_stRcnt (s : State) (rest : List HostAction) : (s.dequeue rest).stRcnt = s.stRcnt := rfl
@[simp] theorem State.dequeue_patStep (s : State) (rest : List HostAction) : (s.dequeue rest).patStep = s.patStep := rfl
@[simp] theorem State.dequeue_patScalar (s : State) (rest : List HostAction) : (s.dequeue rest).patScalar = s.patScalar := rfl
@[simp] theorem State.dequeue_cfgMfr (s : State) (rest : List HostAction) : (s.dequeue rest).cfgMfr = s.cfgMfr := rfl
@[simp] theorem State.dequeue_cfgProd (s : State) (rest : List HostAction) : (s.dequeue rest).cfgProd = s.cfgProd := rfl
@[simp] theorem State.dequeue_unesc (s : State) (rest : List HostAction) : (s.dequeue rest).unesc = s.unesc := rfl
@[simp] theorem State.dequeue_esc (s : State) (rest : List HostAction) : (s.dequeue rest).esc = s.esc := rfl
@[simp] theorem State.dequeue_pending (s : State) (rest : List HostAction) : (s.dequeue rest).pending = rest := rfl
@[simp] theorem State.dequeue_returned (s : State) (rest : List HostAction) : (s.dequeue rest).returned = s.returned := rfl
@[simp] theorem State.dequeue_faults (s : State) (rest : List HostAction) : (s.dequeue rest).faults = s.faults := rfl

@[simp] theorem State.record_inBuf (s : State) (v : HostValue) : (s.record v).inBuf = s.inBuf := rfl
@[simp] theorem State.record_inLen (s : State) (v : HostValue) : (s.record v).inLen = s.inLen := rfl
@[simp] theorem State.record_dev (s : State) (v : HostValue) : (s.record v).dev = s.dev := rfl
@[simp] theorem State.record_mtype (s : State) (v : HostValue) : (s.record v).mtype = s.mtype := rfl
@[simp] theorem State.record_mid (s : State) (v : HostValue) : (s.record v).mid = s.mid := rfl
@[simp] theorem State.record_ver0 (s : State) (v : HostValue) : (s.record v).ver0 = s.ver0 := rfl
@[simp] theorem State.record_ver1 (s : State) (v : HostValue) : (s.record v).ver1 = s.ver1 := rfl
@[simp] theorem State.record_ver2 (s : State) (v : HostValue) : (s.record v).ver2 = s.ver2 := rfl
@[simp] theorem State.record_sb (s : State) (v : HostValue) : (s.record v).sb = s.sb := rfl
@[simp] theorem State.record_status (s : State) (v : HostValue) : (s.record v).status = s.status := rfl
@[simp] theorem State.record_outBuf (s : State) (v : HostValue) : (s.record v).outBuf = s.outBuf := rfl
@[simp] theorem State.record_outLen (s : State) (v : HostValue) : (s.record v).outLen = s.outLen := rfl
@[simp] theorem State.record_rtype (s : State) (v : HostValue) : (s.record v).rtype = s.rtype := rfl
@[simp] theorem State.record_rid (s : State) (v : HostValue) : (s.record v).rid = s.rid := rfl
@[simp] theorem State.record_stOn (s : State) (v : HostValue) : (s.record v).stOn = s.stOn := rfl
@[simp] theorem State.record_stProb (s : State) (v : HostValue) : (s.record v).stProb = s.stProb := rfl
@[simp] theorem State.record_stFlam (s : State) (v : HostValue) : (s.record v).stFlam = s.stFlam := rfl
@[simp] theorem State.record_stRep (s : State) (v : HostValue) : (s.record v).stRep = s.stRep := rfl
@[simp] theorem State.record_stRcnt (s : State) (v : HostValue) : (s.record v).stRcnt = s.stRcnt := rfl
@[simp] theorem State.record_patStep (s : State) (v : HostValue) : (s.record v).patStep = s.patStep := rfl
@[simp] theorem State.record_patScalar (s : State) (v : HostValue) : (s.record v).patScalar = s.patScalar := rfl
@[simp] theorem State.record_cfgMfr (s : State) (v : HostValue) : (s.record v).cfgMfr = s.cfgMfr := rfl
@[simp] theorem State.record_cfgProd (s : State) (v : HostValue) : (s.record v).cfgProd = s.cfgProd := rfl
@[simp] theorem State.record_unesc (s : State) (v : HostValue) : (s.record v).unesc = s.unesc := rfl
@[simp] theorem State.record_esc (s : State) (v : HostValue) : (s.record v).esc = s.esc := rfl
@[simp] theorem State.record_pending (s : State) (v : HostValue) : (s.record v).pending = s.pending := rfl
@[simp] theorem State.record_returned (s : State) (v : HostValue) : (s.record v).returned = s.returned ++ [v] := rfl
@[simp] theorem State.record_faults (s : State) (v : HostValue) : (s.record v).faults = s.faults := rfl

@[simp] theorem State.recordFault_inBuf (s : State) (f : Fault) : (s.recordFault f).inBuf = s.inBuf := rfl
@[simp] theorem State.recordFault_inLen (s : State) (f : Fault) : (s.recordFault f).inLen = s.inLen := rfl
@[simp] theorem State.recordFault_dev (s : State) (f : Fault) : (s.recordFault f).dev = s.dev := rfl
@[simp] theorem State.recordFault_mtype (s : State) (f : Fault) : (s.recordFault f).mtype = s.mtype := rfl
@[simp] theorem State.recordFault_mid (s : State) (f : Fault) : (s.recordFault f).mid = s.mid := rfl
@[simp] theorem State.recordFault_ver0 (s : State) (f : Fault) : (s.recordFault f).ver0 = s.ver0 := rfl
@[simp] theorem State.recordFault_ver1 (s : State) (f : Fault) : (s.recordFault f).ver1 = s.ver1 := rfl
@[simp] theorem State.recordFault_ver2 (s : State) (f : Fault) : (s.recordFault f).ver2 = s.ver2 := rfl
@[simp] theorem State.recordFault_sb (s : State) (f : Fault) : (s.recordFault f).sb = s.sb := rfl
@[simp] theorem State.recordFault_status (s : State) (f : Fault) : (s.recordFault f).status = s.status := rfl
@[simp] theorem State.recordFault_outBuf (s : State) (f : Fault) : (s.recordFault f).outBuf = s.outBuf := rfl
@[simp] theorem State.recordFault_outLen (s : State) (f : Fault) : (s.recordFault f).outLen = s.outLen := rfl
@[simp] theorem State.recordFault_rtype (s : State) (f : Fault) : (s.recordFault f).rtype = s.rtype := rfl
@[simp] theorem State.recordFault_rid (s : State) (f : Fault) : (s.recordFault f).rid = s.rid := rfl
@[simp] theorem State.recordFault_stOn (s : State) (f : Fault) : (s.recordFault f).stOn = s.stOn := rfl
@[simp] theorem State.recordFault_stProb (s : State) (f : Fault) : (s.recordFault f).stProb = s.stProb := rfl
@[simp] theorem State.recordFault_stFlam (s : State) (f : Fault) : (s.recordFault f).stFlam = s.stFlam := rfl
@[simp] theorem State.recordFault_stRep (s : State) (f : Fault) : (s.recordFault f).stRep = s.stRep := rfl
@[simp] theorem State.recordFault_stRcnt (s : State) (f : Fault) : (s.recordFault f).stRcnt = s.stRcnt := rfl
@[simp] theorem State.recordFault_patStep (s : State) (f : Fault) : (s.recordFault f).patStep = s.patStep := rfl
@[simp] theorem State.recordFault_patScalar (s : State) (f : Fault) : (s.recordFault f).patScalar = s.patScalar := rfl
@[simp] theorem State.recordFault_cfgMfr (s : State) (f : Fault) : (s.recordFault f).cfgMfr = s.cfgMfr := rfl
@[simp] theorem State.recordFault_cfgProd (s : State) (f : Fault) : (s.recordFault f).cfgProd = s.cfgProd := rfl
@[simp] theorem State.recordFault_unesc (s : State) (f : Fault) : (s.recordFault f).unesc = s.unesc := rfl
@[simp] theorem State.recordFault_esc (s : State) (f : Fault) : (s.recordFault f).esc = s.esc := rfl
@[simp] theorem State.recordFault_pending (s : State) (f : Fault) : (s.recordFault f).pending = s.pending := rfl
@[simp] theorem State.recordFault_returned (s : State) (f : Fault) : (s.recordFault f).returned = s.returned := rfl
@[simp] theorem State.recordFault_faults (s : State) (f : Fault) : (s.recordFault f).faults = s.faults ++ [f] := rfl

@[simp] theorem State.hostReset_inBuf (s : State) : s.hostReset.inBuf = State.reset.inBuf := rfl
@[simp] theorem State.hostReset_inLen (s : State) : s.hostReset.inLen = State.reset.inLen := rfl
@[simp] theorem State.hostReset_dev (s : State) : s.hostReset.dev = State.reset.dev := rfl
@[simp] theorem State.hostReset_mtype (s : State) : s.hostReset.mtype = State.reset.mtype := rfl
@[simp] theorem State.hostReset_mid (s : State) : s.hostReset.mid = State.reset.mid := rfl
@[simp] theorem State.hostReset_ver0 (s : State) : s.hostReset.ver0 = State.reset.ver0 := rfl
@[simp] theorem State.hostReset_ver1 (s : State) : s.hostReset.ver1 = State.reset.ver1 := rfl
@[simp] theorem State.hostReset_ver2 (s : State) : s.hostReset.ver2 = State.reset.ver2 := rfl
@[simp] theorem State.hostReset_sb (s : State) : s.hostReset.sb = State.reset.sb := rfl
@[simp] theorem State.hostReset_status (s : State) : s.hostReset.status = State.reset.status := rfl
@[simp] theorem State.hostReset_outBuf (s : State) : s.hostReset.outBuf = State.reset.outBuf := rfl
@[simp] theorem State.hostReset_outLen (s : State) : s.hostReset.outLen = State.reset.outLen := rfl
@[simp] theorem State.hostReset_rtype (s : State) : s.hostReset.rtype = State.reset.rtype := rfl
@[simp] theorem State.hostReset_rid (s : State) : s.hostReset.rid = State.reset.rid := rfl
@[simp] theorem State.hostReset_stOn (s : State) : s.hostReset.stOn = State.reset.stOn := rfl
@[simp] theorem State.hostReset_stProb (s : State) : s.hostReset.stProb = State.reset.stProb := rfl
@[simp] theorem State.hostReset_stFlam (s : State) : s.hostReset.stFlam = State.reset.stFlam := rfl
@[simp] theorem State.hostReset_stRep (s : State) : s.hostReset.stRep = State.reset.stRep := rfl
@[simp] theorem State.hostReset_stRcnt (s : State) : s.hostReset.stRcnt = State.reset.stRcnt := rfl
@[simp] theorem State.hostReset_patStep (s : State) : s.hostReset.patStep = State.reset.patStep := rfl
@[simp] theorem State.hostReset_patScalar (s : State) : s.hostReset.patScalar = State.reset.patScalar := rfl
@[simp] theorem State.hostReset_cfgMfr (s : State) : s.hostReset.cfgMfr = s.cfgMfr := rfl
@[simp] theorem State.hostReset_cfgProd (s : State) : s.hostReset.cfgProd = s.cfgProd := rfl
@[simp] theorem State.hostReset_unesc (s : State) : s.hostReset.unesc = State.reset.unesc := rfl
@[simp] theorem State.hostReset_esc (s : State) : s.hostReset.esc = State.reset.esc := rfl
@[simp] theorem State.hostReset_pending (s : State) : s.hostReset.pending = s.pending := rfl
@[simp] theorem State.hostReset_returned (s : State) : s.hostReset.returned = s.returned := rfl
@[simp] theorem State.hostReset_faults (s : State) : s.hostReset.faults = s.faults := rfl

@[simp] theorem State.putOperand_inBuf (s : State) (r : SetReg) (v : Nat) :
    (s.putOperand r v).inBuf = s.inBuf := by
  cases r <;> rfl
@[simp] theorem State.putOperand_inLen (s : State) (r : SetReg) (v : Nat) :
    (s.putOperand r v).inLen = s.inLen := by
  cases r <;> rfl
@[simp] theorem State.putOperand_status (s : State) (r : SetReg) (v : Nat) :
    (s.putOperand r v).status = s.status := by
  cases r <;> rfl
@[simp] theorem State.putOperand_outBuf (s : State) (r : SetReg) (v : Nat) :
    (s.putOperand r v).outBuf = s.outBuf := by
  cases r <;> rfl
@[simp] theorem State.putOperand_outLen (s : State) (r : SetReg) (v : Nat) :
    (s.putOperand r v).outLen = s.outLen := by
  cases r <;> rfl
@[simp] theorem State.putOperand_rtype (s : State) (r : SetReg) (v : Nat) :
    (s.putOperand r v).rtype = s.rtype := by
  cases r <;> rfl
@[simp] theorem State.putOperand_rid (s : State) (r : SetReg) (v : Nat) :
    (s.putOperand r v).rid = s.rid := by
  cases r <;> rfl
@[simp] theorem State.putOperand_stOn (s : State) (r : SetReg) (v : Nat) :
    (s.putOperand r v).stOn = s.stOn := by
  cases r <;> rfl
@[simp] theorem State.putOperand_stProb (s : State) (r : SetReg) (v : Nat) :
    (s.putOperand r v).stProb = s.stProb := by
  cases r <;> rfl
@[simp] theorem State.putOperand_stFlam (s : State) (r : SetReg) (v : Nat) :
    (s.putOperand r v).stFlam = s.stFlam := by
  cases r <;> rfl
@[simp] theorem State.putOperand_stRep (s : State) (r : SetReg) (v : Nat) :
    (s.putOperand r v).stRep = s.stRep := by
  cases r <;> rfl
@[simp] theorem State.putOperand_stRcnt (s : State) (r : SetReg) (v : Nat) :
    (s.putOperand r v).stRcnt = s.stRcnt := by
  cases r <;> rfl
@[simp] theorem State.putOperand_patStep (s : State) (r : SetReg) (v : Nat) :
    (s.putOperand r v).patStep = s.patStep := by
  cases r <;> rfl
@[simp] theorem State.putOperand_patScalar (s : State) (r : SetReg) (v : Nat) :
    (s.putOperand r v).patScalar = s.patScalar := by
  cases r <;> rfl
@[simp] theorem State.putOperand_cfgMfr (s : State) (r : SetReg) (v : Nat) :
    (s.putOperand r v).cfgMfr = s.cfgMfr := by
  cases r <;> rfl
@[simp] theorem State.putOperand_cfgProd (s : State) (r : SetReg) (v : Nat) :
    (s.putOperand r v).cfgProd = s.cfgProd := by
  cases r <;> rfl
@[simp] theorem State.putOperand_unesc (s : State) (r : SetReg) (v : Nat) :
    (s.putOperand r v).unesc = s.unesc := by
  cases r <;> rfl
@[simp] theorem State.putOperand_esc (s : State) (r : SetReg) (v : Nat) :
    (s.putOperand r v).esc = s.esc := by
  cases r <;> rfl
@[simp] theorem State.putOperand_pending (s : State) (r : SetReg) (v : Nat) :
    (s.putOperand r v).pending = s.pending := by
  cases r <;> rfl
@[simp] theorem State.putOperand_returned (s : State) (r : SetReg) (v : Nat) :
    (s.putOperand r v).returned = s.returned := by
  cases r <;> rfl
@[simp] theorem State.putOperand_faults (s : State) (r : SetReg) (v : Nat) :
    (s.putOperand r v).faults = s.faults := by
  cases r <;> rfl

@[simp] theorem State.putOperand_at_dev (s : State) (v : Nat) :
    s.putOperand .dev v = { s with dev := .full (BitVec.ofNat 4 v) } := rfl
@[simp] theorem State.putOperand_at_mtype (s : State) (v : Nat) :
    s.putOperand .mtype v = { s with mtype := .full (BitVec.ofNat 8 v) } := rfl
@[simp] theorem State.putOperand_at_mid (s : State) (v : Nat) :
    s.putOperand .mid v = { s with mid := .full (BitVec.ofNat 8 v) } := rfl
@[simp] theorem State.putOperand_at_ver0 (s : State) (v : Nat) :
    s.putOperand .ver0 v = { s with ver0 := .full (BitVec.ofNat 8 v) } := rfl
@[simp] theorem State.putOperand_at_ver1 (s : State) (v : Nat) :
    s.putOperand .ver1 v = { s with ver1 := .full (BitVec.ofNat 8 v) } := rfl
@[simp] theorem State.putOperand_at_ver2 (s : State) (v : Nat) :
    s.putOperand .ver2 v = { s with ver2 := .full (BitVec.ofNat 8 v) } := rfl
@[simp] theorem State.putOperand_at_sb (s : State) (v : Nat) :
    s.putOperand .sb v = { s with sb := .full (BitVec.ofNat 8 v) } := rfl

@[simp] theorem State.raise_eq (s : State) (inv : State → State) (c : StatusCode) :
    s.raise inv c = (inv s).complete c := rfl

@[simp] theorem State.withFetchWord_pending (s : State) (nbits w : Nat) :
    (s.withFetchWord nbits w).pending =
      .command (BitVec.ofNat 8 (w % 2 ^ nbits)) :: s.pending := rfl

@[simp] theorem State.withFetchWord_dequeue (s : State) (nbits w : Nat) :
    (s.withFetchWord nbits w).dequeue s.pending = s := rfl

/-- STATUS NONE is the reset value (R29, R117). -/
theorem State.reset_status : State.reset.status = StatusCode.none.code := rfl

end Sys2Proof.Machine
end

