-- ==== Sys2Proof/Laws/Operands.lean ====
section
/-! SUPPORT. Reading operands: when the snapshot of IN (and the host's reading of OUT) is a sequence, when
it faults and with which fault, and what an operation that goes on has read. -/

namespace Sys2Proof.Machine

/-- A reading of `n` indices gives a sequence exactly if each index reads as its byte. -/
theorem readSeq_eq_ok_iff (rd : Nat → Except Fault Byte) : ∀ (n k : Nat) (bs : List Byte),
    readSeq rd k n = .ok bs ↔
      bs.length = n ∧ ∀ i b, bs[i]? = some b → rd (k + i) = .ok b := by
  intro n
  induction n with
  | zero =>
    intro k bs
    cases bs <;> simp [readSeq]
  | succ n ih =>
    intro k bs
    unfold readSeq
    constructor
    · intro h
      split at h
      · cases h
      · rename_i b hb
        split at h
        · cases h
        · rename_i cs hcs
          injection h with h; subst h
          obtain ⟨hlen, hrd⟩ := (ih (k + 1) cs).1 hcs
          refine ⟨by simp [hlen], fun i c hi => ?_⟩
          cases i with
          | zero => simp at hi; subst hi; exact hb
          | succ i =>
            have := hrd i c (by simpa using hi)
            rwa [show k + (i + 1) = k + 1 + i by omega]
    · rintro ⟨hlen, hrd⟩
      cases bs with
      | nil => simp at hlen
      | cons b cs =>
        have h0 := hrd 0 b (by simp)
        have hcs := (ih (k + 1) cs).2 ⟨by simpa using hlen, fun i c hi => by
          have := hrd (i + 1) c (by simpa using hi)
          rwa [show k + 1 + i = k + (i + 1) by omega]⟩
        simp only [Nat.add_zero] at h0
        simp [h0, hcs]

/-- A reading that faults does so with a fault of one of the indices it reads. -/
theorem readSeq_error (rd : Nat → Except Fault Byte) : ∀ (n k : Nat) (f : Fault),
    readSeq rd k n = .error f → ∃ i, k ≤ i ∧ i < k + n ∧ rd i = .error f := by
  intro n
  induction n with
  | zero => intro k f h; cases h
  | succ n ih =>
    intro k f h
    unfold readSeq at h
    split at h
    · rename_i g hg; injection h with h; subst h
      exact ⟨k, Nat.le_refl k, by omega, hg⟩
    · split at h
      · rename_i g hg; injection h with h; subst h
        obtain ⟨i, hk, hi, hr⟩ := ih (k + 1) _ hg
        exact ⟨i, by omega, by omega, hr⟩
      · cases h

@[simp] theorem valueOf_some {α : Type} (r : Reg) (a : α) : valueOf r (some a) = .ok a := rfl

@[simp] theorem valueOf_none {α : Type} (r : Reg) :
    valueOf r (none : Option α) = .error (.unwrittenOperand r) := rfl

@[simp] theorem ok_bind {α β : Type} (a : α) (k : α → Except Fault β) :
    (Except.ok a : Except Fault α).bind k = k a := rfl

@[simp] theorem error_bind {α β : Type} (f : Fault) (k : α → Except Fault β) :
    (Except.error f : Except Fault α).bind k = .error f := rfl

@[simp] theorem ok_map {α β : Type} (a : α) (k : α → β) :
    (Except.ok a : Except Fault α).map k = .ok (k a) := rfl

@[simp] theorem error_map {α β : Type} (f : Fault) (k : α → β) :
    (Except.error f : Except Fault α).map k = .error f := rfl

@[simp] theorem goOn_ok {α : Type} (s : State) (a : α) (k : α → Result) :
    goOn s (.ok a) k = k a := rfl

@[simp] theorem goOn_error {α : Type} (s : State) (f : Fault) (k : α → Result) :
    goOn s (.error f) k = .next (s.recordFault f) := rfl

/-- A register, or an index, reads as a value exactly if it holds it (R21). -/
theorem valueOf_eq_ok_iff {α : Type} (r : Reg) (v : Option α) (a : α) :
    valueOf r v = .ok a ↔ v = some a := by
  cases v <;> simp

/-- Reading a register, or an index, faults only as its `UnwrittenOperand`, and only where it holds no
value (R21, R102). -/
theorem valueOf_error {α : Type} {r : Reg} {v : Option α} {f : Fault} (h : valueOf r v = .error f) :
    v = none ∧ f = .unwrittenOperand r := by
  cases v with
  | none => injection h with h; exact ⟨rfl, h.symm⟩
  | some a => cases h

/-- A reading goes on to a next state with the value read, or the model records the reading's fault. -/
theorem goOn_next {α : Type} {s t : State} {e : Except Fault α} {k : α → Result}
    (h : goOn s e k = .next t) :
    (∃ a, e = .ok a ∧ k a = .next t) ∨ ∃ f, e = .error f ∧ t = s.recordFault f := by
  cases e with
  | ok a => exact .inl ⟨a, rfl, h⟩
  | error f => injection h with h; exact .inr ⟨f, rfl, h.symm⟩

/-- A reading ends in a fault only as what follows it does. -/
theorem goOn_fault {α : Type} {s : State} {e : Except Fault α} {k : α → Result} {f : Fault}
    (h : goOn s e k = .fault f) : ∃ a, e = .ok a ∧ k a = .fault f := by
  cases e with
  | ok a => exact ⟨a, rfl, h⟩
  | error g => cases h

/-- A reading ends in a refusal only as what follows it does. -/
theorem goOn_refused {α : Type} {s : State} {e : Except Fault α} {k : α → Result} {q : Refusal}
    (h : goOn s e k = .refused q) : ∃ a, e = .ok a ∧ k a = .refused q := by
  cases e with
  | ok a => exact ⟨a, rfl, h⟩
  | error f => cases h

/-- Recording a fault makes the record longer, so a state that records one is none that records none. -/
theorem State.recordFault_faults_ne (s : State) (f : Fault) : (s.recordFault f).faults ≠ s.faults := by
  simp

/-- One byte of IN reads as a byte exactly if its index is below IN_LEN and the buffer holds it. -/
theorem State.memReadIn_eq_ok_iff (s : State) (k : Nat) (b : Byte) :
    s.memReadIn k = .ok b ↔
      ∃ m n, s.inBuf.value = some m ∧ s.inLen.value = some n ∧ k < n ∧ Memory.read m k = some b := by
  unfold State.memReadIn
  cases hm : s.inBuf.value <;> cases hn : s.inLen.value <;> simp
  split
  · rename_i hlt; simp [valueOf_eq_ok_iff, hlt]
  · rename_i hlt; simp [hlt]

/-- The snapshot of IN is `bs` exactly if IN holds `bs`. -/
theorem State.inputBytes_eq_ok_iff (s : State) (bs : List Byte) :
    s.inputBytes = .ok bs ↔ s.InHolds bs := by
  unfold State.inputBytes State.InHolds
  cases hm : s.inBuf.value with
  | none => simp
  | some m =>
    cases hn : s.inLen.value with
    | none => simp
    | some n =>
      have hrd : ∀ k b, s.memReadIn k = .ok b ↔ k < n ∧ Memory.read m k = some b := by
        intro k b; rw [State.memReadIn_eq_ok_iff]; simp [hm, hn]
      simp only [valueOf_some, ok_bind, readSeq_eq_ok_iff, hrd, Nat.zero_add, Option.some.injEq, exists_eq_left']
      constructor
      · rintro ⟨rfl, h⟩
        refine ⟨rfl, fun k hk => ?_⟩
        rw [List.getElem?_eq_getElem hk]
        exact (h k _ (List.getElem?_eq_getElem hk)).2
      · rintro ⟨rfl, h⟩
        refine ⟨rfl, fun i b hb => ?_⟩
        obtain ⟨hi, _⟩ := List.getElem?_eq_some_iff.1 hb
        exact ⟨hi, by rw [h i hi, hb]⟩

/-- A snapshot that faults does so because IN holds no value (R44: never with OutOfRange). -/
theorem State.inputBytes_error (s : State) (f : Fault) (h : s.inputBytes = .error f) :
    f = .unwrittenOperand .input := by
  unfold State.inputBytes at h
  cases hm : s.inBuf.value with
  | none => rw [hm] at h; injection h with h; exact h.symm
  | some m =>
    cases hn : s.inLen.value with
    | none => rw [hm, hn] at h; injection h with h; exact h.symm
    | some n =>
      simp only [hm, hn, valueOf_some, ok_bind] at h
      obtain ⟨i, _, hi, hr⟩ := readSeq_error _ _ _ _ h
      simp only [State.memReadIn, hm, hn, valueOf_some, ok_bind] at hr
      rw [if_pos (by omega)] at hr
      exact (valueOf_error hr).2

/-- OUT that holds `bs` is read by the host as `bs`. -/
theorem State.outputBytes_of_holds {s : State} {bs : List Byte} (h : s.OutHolds bs) :
    s.outputBytes = .ok bs := by
  obtain ⟨hn, m, hm, hr⟩ := h
  unfold State.outputBytes
  simp only [hm, hn, valueOf_some, ok_bind]
  refine (readSeq_eq_ok_iff _ _ _ _).2 ⟨rfl, fun i b hb => ?_⟩
  obtain ⟨hi, _⟩ := List.getElem?_eq_some_iff.1 hb
  simp only [State.memReadOut, hm, hn, valueOf_some, ok_bind, Nat.zero_add, if_pos hi, hr, hb]

/-- What the host reads from OUT has OUT_LEN bytes. -/
theorem State.outputBytes_length {s : State} {bs : List Byte} (h : s.outputBytes = .ok bs) :
    s.outLen.value = some bs.length := by
  unfold State.outputBytes at h
  cases hm : s.outBuf.value with
  | none => rw [hm] at h; cases h
  | some m =>
    cases hn : s.outLen.value with
    | none => rw [hm, hn] at h; cases h
    | some n =>
      simp only [hm, hn, valueOf_some, ok_bind] at h
      rw [((readSeq_eq_ok_iff _ _ _ _).1 h).1]

/-- A host read of OUT that faults names OUT or OUT_LEN. -/
theorem State.outputBytes_error (s : State) (f : Fault) (h : s.outputBytes = .error f) :
    f = .unwrittenOperand (.result .out) ∨ f = .unwrittenOperand (.result .outLen) := by
  unfold State.outputBytes at h
  cases hm : s.outBuf.value with
  | none => rw [hm] at h; injection h with h; exact .inl h.symm
  | some m =>
    cases hn : s.outLen.value with
    | none => rw [hm, hn] at h; injection h with h; exact .inr h.symm
    | some n =>
      simp only [hm, hn, valueOf_some, ok_bind] at h
      obtain ⟨i, _, hi, hr⟩ := readSeq_error _ _ _ _ h
      simp only [State.memReadOut, hm, hn, valueOf_some, ok_bind] at hr
      exact .inl (valueOf_error hr).2

/-- Loading a sequence into IN makes IN hold it. -/
theorem State.putInput_inHolds (s : State) (bs : List Byte) : (s.putInput bs).InHolds bs :=
  ⟨rfl, _, rfl, fun k _ => Memory.read_ofBytes bs k⟩

/-- Writing a sequence to OUT makes OUT hold it. -/
theorem State.putOutput_outHolds (s : State) (bs : List Byte) : (s.putOutput bs).OutHolds bs :=
  ⟨rfl, _, rfl, fun k => Memory.read_ofBytes bs k⟩

/-- A buffer a whole sequence was stored in agrees with the length stored beside it (R39). -/
theorem bufferAgrees_ofBytes (bs : List Byte) :
    BufferAgrees (some (Memory.ofBytes bs)) (some bs.length) :=
  ⟨Memory.wf_ofBytes bs, fun k => by rw [Memory.read_ofBytes]; simp⟩

/-- IN holds at most one sequence. -/
theorem State.InHolds.unique {s : State} {bs cs : List Byte} (h : s.InHolds bs) (h' : s.InHolds cs) :
    bs = cs := by
  have e := (s.inputBytes_eq_ok_iff bs).2 h
  rw [(s.inputBytes_eq_ok_iff cs).2 h'] at e
  injection e with e
  exact e.symm

/-- An operation that reads IN goes on with the sequence IN holds. -/
theorem needInput_of_holds {s : State} {bs : List Byte} (h : s.InHolds bs) (k : List Byte → Result) :
    needInput s k = k bs := by
  rw [needInput, (s.inputBytes_eq_ok_iff bs).2 h, goOn_ok]

/-- An operation that reads IN where IN holds no value records UnwrittenOperand(IN). -/
theorem needInput_of_not_holds {s : State} (h : ∀ bs, ¬ s.InHolds bs) (k : List Byte → Result) :
    needInput s k = .next (s.recordFault (.unwrittenOperand .input)) := by
  unfold needInput
  cases he : s.inputBytes with
  | ok bs => exact absurd ((s.inputBytes_eq_ok_iff bs).1 he) (h bs)
  | error f => rw [s.inputBytes_error f he]; rfl

/-- An operation that reads IN does what follows the reading, or records UnwrittenOperand(IN). -/
theorem needInput_cases (s : State) (k : List Byte → Result) :
    (∃ bs, s.InHolds bs ∧ needInput s k = k bs) ∨
      ((∀ bs, ¬ s.InHolds bs) ∧
        needInput s k = .next (s.recordFault (.unwrittenOperand .input))) := by
  by_cases h : ∃ bs, s.InHolds bs
  · obtain ⟨bs, h⟩ := h
    exact .inl ⟨bs, h, needInput_of_holds h k⟩
  · exact .inr ⟨fun bs hb => h ⟨bs, hb⟩, needInput_of_not_holds (fun bs hb => h ⟨bs, hb⟩) k⟩

@[simp] theorem need_of_value {α : Type} {s : State} {r : SetReg} {v : Register α} {a : α}
    (h : v.value = some a) (k : α → Result) : need s r v k = k a := by
  rw [need, h, valueOf_some, goOn_ok]

@[simp] theorem need_of_noValue {α : Type} {s : State} {r : SetReg} {v : Register α}
    (h : v.value = none) (k : α → Result) :
    need s r v k = .next (s.recordFault (.unwrittenOperand (.operand r))) := by
  rw [need, h, valueOf_none, goOn_error]

/-- An operation that reads a register does what follows the reading, or records its UnwrittenOperand. -/
theorem need_cases {α : Type} (s : State) (r : SetReg) (v : Register α) (k : α → Result) :
    (∃ a, v.value = some a ∧ need s r v k = k a) ∨
      (v.value = none ∧
        need s r v k = .next (s.recordFault (.unwrittenOperand (.operand r)))) := by
  cases h : v.value with
  | none => exact .inr ⟨rfl, need_of_noValue h k⟩
  | some a => exact .inl ⟨a, rfl, need_of_value h k⟩

end Sys2Proof.Machine
end

