-- ==== Sys2Proof/Laws/Meanings.lean ====
section
/-! SUPPORT. One lemma for each meaning that says everything it can do when it answers a next state, and
the next state it answers when its operands hold values. -/

namespace Sys2Proof.Machine

/-- The state after ESCAPE of `bs` (R70). -/
def State.afterEscape (s : State) (bs : List Byte) : State :=
  ((s.putOutput (escape bs)).putEsc (s.esc.run bs).1).complete .ok

/-- The state after UNESCAPE of `bs` (R72). -/
def State.afterUnescape (s : State) (bs : List Byte) : State :=
  ((s.putOutput (unescape bs)).putUnesc (s.unesc.run bs).1).complete .ok

/-- The state after an operation that writes the frame `out` to OUT (R83, R85). -/
def State.afterFrame (s : State) (out : List Byte) : State := (s.putOutput out).complete .ok

/-- The state after CLASSIFY of `bs` (R87). -/
def State.afterClassify (s : State) (bs : List Byte) : State :=
  match classifyBytes s.cfgMfr s.cfgProd bs with
  | some ti => (s.putClass ti).complete .ok
  | none => (s.putClass sentinel).complete .notOurs

/-- The state after STEP_DECODE of `b` (R91). -/
def State.afterStep (s : State) (b : Byte) : State := (s.putStep (stepDecode b)).complete .ok

/-- The state after PATTERN_DECODE of `bs` (R93, R97). -/
def State.afterPattern (s : State) (bs : List Byte) : State :=
  match decodePattern bs with
  | .ok gv => (s.putPattern gv.1 gv.2).complete .ok
  | .error c => s.clearPattern.complete c

theorem execEscape_of_holds {s : State} {bs : List Byte} (h : s.InHolds bs) :
    execEscape s = .next (s.afterEscape bs) := needInput_of_holds h _

theorem execUnescape_of_holds {s : State} {bs : List Byte} (h : s.InHolds bs) :
    execUnescape s = .next (s.afterUnescape bs) := needInput_of_holds h _

theorem execFrame_of_holds {s : State} {dev : DeviceId} {mtype mid : Byte} {bs : List Byte}
    (hd : s.dev.value = some dev) (ht : s.mtype.value = some mtype) (hi : s.mid.value = some mid)
    (h : s.InHolds bs) :
    execFrame s = .next (s.afterFrame (plainFrame s.cfgMfr s.cfgProd dev mtype mid bs)) := by
  simp only [execFrame, need_of_value hd, need_of_value ht, need_of_value hi, needInput_of_holds h]
  rfl

theorem execRequestFrame_of_holds {s : State} {dev : DeviceId} {v0 v1 v2 mtype mid : Byte}
    {bs : List Byte} (hd : s.dev.value = some dev) (h0 : s.ver0.value = some v0)
    (h1 : s.ver1.value = some v1) (h2 : s.ver2.value = some v2) (ht : s.mtype.value = some mtype)
    (hi : s.mid.value = some mid) (h : s.InHolds bs) :
    execRequestFrame s = .next
      (s.afterFrame (requestFrameBytes s.cfgMfr s.cfgProd dev v0 v1 v2 mtype mid bs)) := by
  simp only [execRequestFrame, need_of_value hd, need_of_value h0, need_of_value h1,
    need_of_value h2, need_of_value ht, need_of_value hi, needInput_of_holds h]
  rfl

theorem execClassify_of_holds {s : State} {bs : List Byte} (h : s.InHolds bs) :
    execClassify s = .next (s.afterClassify bs) := by
  simp only [execClassify, needInput_of_holds h, State.afterClassify]
  cases classifyBytes s.cfgMfr s.cfgProd bs <;> rfl

theorem execStepDecode_of_holds {s : State} {b : Byte} (h : s.sb.value = some b) :
    execStepDecode s = .next (s.afterStep b) := by
  simp only [execStepDecode, need_of_value h]
  rfl

theorem execPatternDecode_of_holds {s : State} {bs : List Byte} (h : s.InHolds bs) :
    execPatternDecode s = .next (s.afterPattern bs) := by
  simp only [execPatternDecode, needInput_of_holds h, State.afterPattern]
  cases decodePattern bs <;> rfl

/-! Everything each meaning can do: its operands hold values and it completes or fails as above, or one of
them holds none and the model records the fault. No meaning ends in a fault or a refusal. -/

theorem execEscape_cases (s : State) :
    (∃ bs, s.InHolds bs ∧ execEscape s = .next (s.afterEscape bs)) ∨
      ∃ t, execEscape s = .next t ∧ FaultRecorded .escape s t := by
  rcases needInput_cases s _ with ⟨bs, hb, h⟩ | ⟨hn, h⟩
  · exact .inl ⟨bs, hb, h⟩
  · exact .inr ⟨_, h, .input, by decide, hn, rfl⟩

theorem execUnescape_cases (s : State) :
    (∃ bs, s.InHolds bs ∧ execUnescape s = .next (s.afterUnescape bs)) ∨
      ∃ t, execUnescape s = .next t ∧ FaultRecorded .unescape s t := by
  rcases needInput_cases s _ with ⟨bs, hb, h⟩ | ⟨hn, h⟩
  · exact .inl ⟨bs, hb, h⟩
  · exact .inr ⟨_, h, .input, by decide, hn, rfl⟩

theorem execFrame_cases (s : State) :
    (∃ dev mtype mid bs, s.dev.value = some dev ∧ s.mtype.value = some mtype ∧
      s.mid.value = some mid ∧ s.InHolds bs ∧
      execFrame s = .next (s.afterFrame (plainFrame s.cfgMfr s.cfgProd dev mtype mid bs))) ∨
      ∃ t, execFrame s = .next t ∧ FaultRecorded .frame s t := by
  unfold execFrame
  rcases need_cases s .dev s.dev _ with ⟨dev, hd, h⟩ | ⟨hn, h⟩ <;> rw [h]
  swap
  · exact .inr ⟨_, rfl, .operand .dev, by decide, hn, rfl⟩
  rcases need_cases s .mtype s.mtype _ with ⟨mtype, ht, h⟩ | ⟨hn, h⟩ <;> rw [h]
  swap
  · exact .inr ⟨_, rfl, .operand .mtype, by decide, hn, rfl⟩
  rcases need_cases s .mid s.mid _ with ⟨mid, hi, h⟩ | ⟨hn, h⟩ <;> rw [h]
  swap
  · exact .inr ⟨_, rfl, .operand .mid, by decide, hn, rfl⟩
  rcases needInput_cases s _ with ⟨bs, hb, h⟩ | ⟨hn, h⟩ <;> rw [h]
  · exact .inl ⟨dev, mtype, mid, bs, hd, ht, hi, hb, rfl⟩
  · exact .inr ⟨_, rfl, .input, by decide, hn, rfl⟩

theorem execRequestFrame_cases (s : State) :
    (∃ dev v0 v1 v2 mtype mid bs, s.dev.value = some dev ∧ s.ver0.value = some v0 ∧
      s.ver1.value = some v1 ∧ s.ver2.value = some v2 ∧ s.mtype.value = some mtype ∧
      s.mid.value = some mid ∧ s.InHolds bs ∧
      execRequestFrame s = .next
        (s.afterFrame (requestFrameBytes s.cfgMfr s.cfgProd dev v0 v1 v2 mtype mid bs))) ∨
      ∃ t, execRequestFrame s = .next t ∧ FaultRecorded .requestFrame s t := by
  unfold execRequestFrame
  rcases need_cases s .dev s.dev _ with ⟨dev, hd, h⟩ | ⟨hn, h⟩ <;> rw [h]
  swap
  · exact .inr ⟨_, rfl, .operand .dev, by decide, hn, rfl⟩
  rcases need_cases s .ver0 s.ver0 _ with ⟨v0, h0, h⟩ | ⟨hn, h⟩ <;> rw [h]
  swap
  · exact .inr ⟨_, rfl, .operand .ver0, by decide, hn, rfl⟩
  rcases need_cases s .ver1 s.ver1 _ with ⟨v1, h1, h⟩ | ⟨hn, h⟩ <;> rw [h]
  swap
  · exact .inr ⟨_, rfl, .operand .ver1, by decide, hn, rfl⟩
  rcases need_cases s .ver2 s.ver2 _ with ⟨v2, h2, h⟩ | ⟨hn, h⟩ <;> rw [h]
  swap
  · exact .inr ⟨_, rfl, .operand .ver2, by decide, hn, rfl⟩
  rcases need_cases s .mtype s.mtype _ with ⟨mtype, ht, h⟩ | ⟨hn, h⟩ <;> rw [h]
  swap
  · exact .inr ⟨_, rfl, .operand .mtype, by decide, hn, rfl⟩
  rcases need_cases s .mid s.mid _ with ⟨mid, hi, h⟩ | ⟨hn, h⟩ <;> rw [h]
  swap
  · exact .inr ⟨_, rfl, .operand .mid, by decide, hn, rfl⟩
  rcases needInput_cases s _ with ⟨bs, hb, h⟩ | ⟨hn, h⟩ <;> rw [h]
  · exact .inl ⟨dev, v0, v1, v2, mtype, mid, bs, hd, h0, h1, h2, ht, hi, hb, rfl⟩
  · exact .inr ⟨_, rfl, .input, by decide, hn, rfl⟩

theorem execClassify_cases (s : State) :
    (∃ bs, s.InHolds bs ∧ execClassify s = .next (s.afterClassify bs)) ∨
      ∃ t, execClassify s = .next t ∧ FaultRecorded .classify s t := by
  rcases needInput_cases s _ with ⟨bs, hb, -⟩ | ⟨hn, h⟩
  · exact .inl ⟨bs, hb, execClassify_of_holds hb⟩
  · exact .inr ⟨_, h, .input, by decide, hn, rfl⟩

theorem execStepDecode_cases (s : State) :
    (∃ b, s.sb.value = some b ∧ execStepDecode s = .next (s.afterStep b)) ∨
      ∃ t, execStepDecode s = .next t ∧ FaultRecorded .stepDecode s t := by
  rcases need_cases s .sb s.sb _ with ⟨b, hb, h⟩ | ⟨hn, h⟩
  · exact .inl ⟨b, hb, h⟩
  · exact .inr ⟨_, h, .operand .sb, by decide, hn, rfl⟩

theorem execPatternDecode_cases (s : State) :
    (∃ bs, s.InHolds bs ∧ execPatternDecode s = .next (s.afterPattern bs)) ∨
      ∃ t, execPatternDecode s = .next t ∧ FaultRecorded .patternDecode s t := by
  rcases needInput_cases s _ with ⟨bs, hb, -⟩ | ⟨hn, h⟩
  · exact .inl ⟨bs, hb, execPatternDecode_of_holds hb⟩
  · exact .inr ⟨_, h, .input, by decide, hn, rfl⟩

/-- The three outcomes of classifying: too short, another header, or this protocol's (R87). -/
theorem classifyBytes_eq_some_iff (mfr prod : Byte) (bs : List Byte) (ti : Byte × Byte) :
    classifyBytes mfr prod bs = some ti ↔
      7 ≤ bs.length ∧ bs[0]? = some hdr0 ∧ bs[1]? = some hdr1 ∧ bs[2]? = some mfr ∧
        bs[3]? = some prod ∧ bs[5]? = some ti.1 ∧ bs[6]? = some ti.2 := by
  unfold classifyBytes
  split
  · rename_i h
    have h' : 7 ≤ bs.length := h
    rw [List.getElem?_eq_getElem (by omega), List.getElem?_eq_getElem (by omega),
      List.getElem?_eq_getElem (by omega), List.getElem?_eq_getElem (by omega),
      List.getElem?_eq_getElem (by omega), List.getElem?_eq_getElem (by omega)]
    simp only [Option.some.injEq]
    split
    · rename_i hh
      obtain ⟨a, b, c, d⟩ := hh
      simp only [Option.some.injEq, h', a, b, c, d, true_and]
      exact Prod.ext_iff
    · rename_i hh
      constructor
      · intro e; cases e
      · rintro ⟨-, a, b, c, d, -⟩; exact absurd ⟨a, b, c, d⟩ hh
  · rename_i h
    constructor
    · intro e; cases e
    · rintro ⟨h', -⟩; exact absurd h' h

/-- The four outcomes of decoding a pattern, in the order of the guard's tests (R92, R93). -/
theorem decodePattern_cases (bs : List Byte) :
    (bs.length ≠ 889 ∧ decodePattern bs = .error .patBadLength) ∨
    (bs.length = 889 ∧ bs[0]? ≠ some 0x00#8 ∧ decodePattern bs = .error .patBadGuard0) ∨
    (bs.length = 889 ∧ bs[0]? = some 0x00#8 ∧ bs[1]? ≠ some 0x08#8 ∧
      decodePattern bs = .error .patBadGuard1) ∨
    (∃ h : bs.length = 889, bs[0]? = some 0x00#8 ∧ bs[1]? = some 0x08#8 ∧
      decodePattern bs = .ok (decodeGrid bs h, decodeScalars bs)) := by
  unfold decodePattern
  by_cases h : bs.length = 889
  · have h0 : bs[0]? = some bs[0] := List.getElem?_eq_getElem (by omega)
    have h1 : bs[1]? = some bs[1] := List.getElem?_eq_getElem (by omega)
    rw [dif_pos h, h0, h1]
    simp only [Option.some.injEq, ne_eq]
    by_cases g0 : bs[0] = 0x00#8
    · by_cases g1 : bs[1] = 0x08#8
      · simp [g0, g1, h]
      · simp [g0, g1, h]
    · simp [g0, h]
  · rw [dif_neg h]
    exact .inl ⟨h, rfl⟩

end Sys2Proof.Machine
end

