-- ==== Sys2Proof/Laws/Pattern.lean ====
section
/-! SUPPORT. The decoded grid and the decoded scalars, one entry at a time. -/

namespace Sys2Proof

/-- The entry of a table given by a function. -/
@[simp] theorem PerField.get_ofFn {α : Type} (f : ScalarField → α) (x : ScalarField) :
    (PerField.ofFn f).get x = f x := by
  cases x <;> rfl

/-- Two tables with the same entries are the same. -/
theorem PerField.ext_get {α : Type} {p q : PerField α} (h : ∀ f, p.get f = q.get f) : p = q := by
  cases p
  cases q
  simp only [PerField.mk.injEq]
  exact ⟨h .tempo, h .swing, h .probability, h .flamLevel, h .filterMode, h .filterEnable,
    h .filterAutomation, h .filterSteps, h .polymeterOnOff, h .stepSize, h .autoAdvanceOnOff⟩

/-- The list of all fields lists every field. -/
theorem ScalarField.mem_all (f : ScalarField) : f ∈ ScalarField.all := by cases f <;> decide

namespace Machine

/-- The index of every track and step lies inside an 889-byte payload (R94). -/
theorem stepIndex_lt (t : Fin 12) (s : Fin 64) : stepIndex t s < 889 := by
  have := t.isLt
  have := s.isLt
  simp only [stepIndex, trackBase, steps]
  omega

/-- `PAT_STEP[t][s]` is the record of the byte at its index (R93, R94). -/
theorem decodeGrid_get (bs : List Byte) (h : bs.length = patternLen) (t : Fin 12) (s : Fin 64) :
    (decodeGrid bs h)[t][s] = stepDecode (bs[stepIndex t s]'(h ▸ stepIndex_lt t s)) := by
  simp [decodeGrid]

/-- Two grids with the same entries are the same. -/
theorem StepGrid.ext_get {g g' : StepGrid} (h : ∀ (t : Fin 12) (s : Fin 64), g[t][s] = g'[t][s]) :
    g = g' := by
  refine Vector.ext fun i hi => Vector.ext fun j hj => ?_
  exact h ⟨i, hi⟩ ⟨j, hj⟩

/-- `PAT_SCALAR[f]` is the bytes at the field's offset and width (R93). -/
theorem decodeScalars_get (bs : List Byte) (f : ScalarField) :
    (decodeScalars bs).get f =
      slice bs (Config.scalarLayout.get f).offset
        ((Config.scalarLayout.get f).offset + (Config.scalarLayout.get f).width) := by
  simp [decodeScalars]

/-- The bits of a step byte that are read are bits 0, 2, 3, 4, 5 and 6 (R64, R90). -/
theorem stepDecode_masked (b : Byte) : stepDecode (b &&& 0x7D#8) = stepDecode b := by
  simp only [stepDecode, StepData.mk.injEq]
  refine ⟨by simp, by simp, by simp, by simp, ?_⟩
  ext i hi
  interval_cases i <;> simp

end Machine

end Sys2Proof
end

