-- ==== Sys2Proof/Laws/PerInstr.lean ====
section
/-! SUPPORT. The family RoundTrip: decoding the command word of an instruction gives the instruction back
(spec/30_encoding.md R54, R55), one lemma for each. -/

namespace Sys2Proof.Laws

/-- The command word of an instruction decodes to it. -/
def RoundTrip.Statement (i : Instr) : Prop := decode (encode i) = .ok i

theorem RoundTrip.escape : RoundTrip.Statement .escape := rfl

theorem RoundTrip.unescape : RoundTrip.Statement .unescape := rfl

theorem RoundTrip.frame : RoundTrip.Statement .frame := rfl

theorem RoundTrip.requestFrame : RoundTrip.Statement .requestFrame := rfl

theorem RoundTrip.classify : RoundTrip.Statement .classify := rfl

theorem RoundTrip.stepDecode : RoundTrip.Statement .stepDecode := rfl

theorem RoundTrip.patternDecode : RoundTrip.Statement .patternDecode := rfl

end Sys2Proof.Laws
end

