-- ==== Sys2Proof/Laws/Step.lean ====
section
/-! SUPPORT. Everything a step can do: the inversion of `exec` over its seven instructions and of a step
over the host's actions. -/

namespace Sys2Proof.Machine

/-- An instruction answers a next state, and which: as its operands that hold values give it, or with the
fault of an operand that holds none recorded. -/
theorem exec_cases (i : Instr) (s : State) : ∃ t, exec i s = .next t ∧
    ((i = .escape ∧ ∃ bs, s.InHolds bs ∧ t = s.afterEscape bs) ∨
     (i = .unescape ∧ ∃ bs, s.InHolds bs ∧ t = s.afterUnescape bs) ∨
     ((i = .frame ∨ i = .requestFrame) ∧
       ∃ out bs, s.InHolds bs ∧ out.length ≤ bs.length + 14 ∧ t = s.afterFrame out) ∨
     (i = .classify ∧ ∃ bs, s.InHolds bs ∧ t = s.afterClassify bs) ∨
     (i = .stepDecode ∧ ∃ b, s.sb.value = some b ∧ t = s.afterStep b) ∨
     (i = .patternDecode ∧ ∃ bs, s.InHolds bs ∧ t = s.afterPattern bs) ∨
     FaultRecorded i s t) := by
  cases i with
  | escape =>
    rcases execEscape_cases s with ⟨bs, hb, h⟩ | ⟨t, h, hf⟩
    · exact ⟨_, h, .inl ⟨rfl, bs, hb, rfl⟩⟩
    · exact ⟨t, h, by simp [hf]⟩
  | unescape =>
    rcases execUnescape_cases s with ⟨bs, hb, h⟩ | ⟨t, h, hf⟩
    · exact ⟨_, h, .inr (.inl ⟨rfl, bs, hb, rfl⟩)⟩
    · exact ⟨t, h, by simp [hf]⟩
  | frame =>
    rcases execFrame_cases s with ⟨dev, mtype, mid, bs, -, -, -, hb, h⟩ | ⟨t, h, hf⟩
    · exact ⟨_, h, .inr (.inr (.inl ⟨.inl rfl, _, bs, hb, by simp [plainFrame, frameHeader], rfl⟩))⟩
    · exact ⟨t, h, by simp [hf]⟩
  | requestFrame =>
    rcases execRequestFrame_cases s with
      ⟨dev, v0, v1, v2, mtype, mid, bs, -, -, -, -, -, -, hb, h⟩ | ⟨t, h, hf⟩
    · exact ⟨_, h, .inr (.inr (.inl
        ⟨.inr rfl, _, bs, hb, by simp [requestFrameBytes, frameHeader], rfl⟩))⟩
    · exact ⟨t, h, by simp [hf]⟩
  | classify =>
    rcases execClassify_cases s with ⟨bs, hb, h⟩ | ⟨t, h, hf⟩
    · exact ⟨_, h, .inr (.inr (.inr (.inl ⟨rfl, bs, hb, rfl⟩)))⟩
    · exact ⟨t, h, by simp [hf]⟩
  | stepDecode =>
    rcases execStepDecode_cases s with ⟨b, hb, h⟩ | ⟨t, h, hf⟩
    · exact ⟨_, h, .inr (.inr (.inr (.inr (.inl ⟨rfl, b, hb, rfl⟩))))⟩
    · exact ⟨t, h, by simp [hf]⟩
  | patternDecode =>
    rcases execPatternDecode_cases s with ⟨bs, hb, h⟩ | ⟨t, h, hf⟩
    · exact ⟨_, h, .inr (.inr (.inr (.inr (.inr (.inl ⟨rfl, bs, hb, rfl⟩)))))⟩
    · exact ⟨t, h, by simp [hf]⟩

/-- The inversion of `exec`: what an instruction's next state is. -/
theorem exec_next {i : Instr} {s t : State} (h : exec i s = .next t) :
    (i = .escape ∧ ∃ bs, s.InHolds bs ∧ t = s.afterEscape bs) ∨
    (i = .unescape ∧ ∃ bs, s.InHolds bs ∧ t = s.afterUnescape bs) ∨
    ((i = .frame ∨ i = .requestFrame) ∧
      ∃ out bs, s.InHolds bs ∧ out.length ≤ bs.length + 14 ∧ t = s.afterFrame out) ∨
    (i = .classify ∧ ∃ bs, s.InHolds bs ∧ t = s.afterClassify bs) ∨
    (i = .stepDecode ∧ ∃ b, s.sb.value = some b ∧ t = s.afterStep b) ∨
    (i = .patternDecode ∧ ∃ bs, s.InHolds bs ∧ t = s.afterPattern bs) ∨
    FaultRecorded i s t := by
  obtain ⟨t', h', hc⟩ := exec_cases i s
  rw [h] at h'
  injection h' with h'
  exact h' ▸ hc

theorem loadInput_next {bs : List Byte} {s t : State} (h : loadInput bs s = .next t) :
    bs.length ≤ Config.maxIn ∧ t = s.putInput bs := by
  unfold loadInput at h
  split at h
  · rename_i hl; injection h with h; exact ⟨hl, h.symm⟩
  · cases h

theorem setOperand_next {r : SetReg} {v : Nat} {s t : State} (h : setOperand r v s = .next t) :
    v < 2 ^ r.width ∧ t = s.putOperand r v := by
  unfold setOperand at h
  split at h
  · rename_i hl; injection h with h; exact ⟨hl, h.symm⟩
  · cases h

theorem moveOutput_next {s t : State} (h : moveOutput s = .next t) :
    (∃ bs, s.outputBytes = .ok bs ∧ bs.length ≤ Config.maxIn ∧ t = s.putInput bs) ∨
      ∃ f, s.outputBytes = .error f ∧ t = s.recordFault f := by
  rcases goOn_next h with ⟨bs, hb, h⟩ | h
  · exact .inl ⟨bs, hb, loadInput_next h⟩
  · exact .inr h

theorem loadOutputSlice_next {a b : Nat} {s t : State} (h : loadOutputSlice a b s = .next t) :
    (∃ bs, s.outputBytes = .ok bs ∧ (slice bs a b).length ≤ Config.maxIn ∧
      t = s.putInput (slice bs a b)) ∨ ∃ f, s.outputBytes = .error f ∧ t = s.recordFault f := by
  rcases goOn_next h with ⟨bs, hb, h⟩ | h
  · exact .inl ⟨bs, hb, loadInput_next h⟩
  · exact .inr h

/-- A load longer than `P_MAX_IN` is refused (R115). -/
theorem loadInput_of_long {bs : List Byte} (h : Config.maxIn < bs.length) (s : State) :
    loadInput bs s = .refused (.loadTooLong bs.length) := by
  unfold loadInput
  rw [if_neg (by omega)]

/-- MOVE is a read of OUT followed by the load (R114). -/
theorem moveOutput_of_holds {s : State} {bs : List Byte} (h : s.OutHolds bs) :
    moveOutput s = loadInput bs s := by
  simp only [moveOutput, State.outputBytes_of_holds h, goOn_ok]

/-- The slice LOAD is a read of OUT followed by the load of the slice (R114). -/
theorem loadOutputSlice_of_holds {s : State} {bs : List Byte} (h : s.OutHolds bs) (a b : Nat) :
    loadOutputSlice a b s = loadInput (slice bs a b) s := by
  simp only [loadOutputSlice, State.outputBytes_of_holds h, goOn_ok]

/-! What each host action that can be refused is refused for (R115). -/

theorem loadInput_refused {bs : List Byte} {s : State} {q : Refusal}
    (h : loadInput bs s = .refused q) : Config.maxIn < bs.length ∧ q = .loadTooLong bs.length := by
  unfold loadInput at h
  split at h
  · cases h
  · injection h with h; exact ⟨by omega, h.symm⟩

theorem setOperand_refused {r : SetReg} {v : Nat} {s : State} {q : Refusal}
    (h : setOperand r v s = .refused q) : 2 ^ r.width ≤ v ∧ q = .operandTooWide r v := by
  unfold setOperand at h
  split at h
  · cases h
  · injection h with h; exact ⟨by omega, h.symm⟩

theorem moveOutput_refused {s : State} {q : Refusal} (h : moveOutput s = .refused q) :
    ∃ n, s.outLen.value = some n ∧ Config.maxIn < n ∧ q = .loadTooLong n := by
  obtain ⟨bs, hb, h⟩ := goOn_refused h
  exact ⟨_, State.outputBytes_length hb, loadInput_refused h⟩

theorem loadOutputSlice_refused {a b : Nat} {s : State} {q : Refusal}
    (h : loadOutputSlice a b s = .refused q) :
    ∃ n, s.outLen.value = some n ∧ Config.maxIn < min b n - a ∧ q = .loadTooLong (min b n - a) := by
  obtain ⟨bs, hb, h⟩ := goOn_refused h
  exact ⟨_, State.outputBytes_length hb, by simpa [slice] using loadInput_refused h⟩

theorem hostRead_next {v : ReadView} {s t : State} (h : hostRead v s = .next t) :
    (∃ x, readView v s = .ok x ∧ t = s.record x) ∨
      ∃ f, readView v s = .error f ∧ t = s.recordFault f := by
  rcases goOn_next h with ⟨x, hx, h⟩ | h
  · injection h with h; exact .inl ⟨x, hx, h.symm⟩
  · exact .inr h

/-- A write of CMD runs the instruction its code selects, or reports a reserved code (R28, R101). -/
theorem runCommand_next {c : Byte} {s t : State} (h : runCommand c s = .next t) :
    (∃ i, decode c = .ok i ∧ exec i s = .next t) ∨
      ((∀ i, decode c ≠ .ok i) ∧ t = s.complete .badOp) := by
  unfold runCommand at h
  split at h
  · rename_i i hi; exact .inl ⟨i, hi, h⟩
  · rename_i hi; injection h with h
    exact .inr ⟨fun i e => by simp [hi] at e, h.symm⟩

/-- Every next state a step answers: the block waits, or the host's next action is one of a load, a set, a
command's operation, a reserved command, a read or a reset, or a read of OUT or of a result register whose
fault is recorded. -/
theorem step_next {s t : State} (h : step s = .next t) :
    (s.pending = [] ∧ t = s) ∨
    ∃ a rest, s.pending = a :: rest ∧
      ((∃ bs, bs.length ≤ Config.maxIn ∧ t = (s.dequeue rest).putInput bs) ∨
       (∃ r v, v < 2 ^ r.width ∧ t = (s.dequeue rest).putOperand r v) ∨
       (∃ i, exec i (s.dequeue rest) = .next t) ∨
       t = (s.dequeue rest).complete .badOp ∨
       (∃ x, t = (s.dequeue rest).record x) ∨
       t = (s.dequeue rest).hostReset ∨
       ∃ f, t = (s.dequeue rest).recordFault f) := by
  unfold step nextAction at h
  split at h
  · rename_i hp; injection h with h; exact .inl ⟨hp, h.symm⟩
  · rename_i a rest hp
    refine .inr ⟨a, rest, hp, ?_⟩
    cases a with
    | load bs => exact .inl ⟨bs, loadInput_next h⟩
    | move =>
      rcases moveOutput_next h with ⟨bs, -, hl⟩ | ⟨f, -, ht⟩
      · exact .inl ⟨bs, hl⟩
      · exact .inr (.inr (.inr (.inr (.inr (.inr ⟨f, ht⟩)))))
    | loadSlice a b =>
      rcases loadOutputSlice_next h with ⟨bs, -, hl⟩ | ⟨f, -, ht⟩
      · exact .inl ⟨_, hl⟩
      · exact .inr (.inr (.inr (.inr (.inr (.inr ⟨f, ht⟩)))))
    | set r v => exact .inr (.inl ⟨r, v, setOperand_next h⟩)
    | command c =>
      rcases runCommand_next h with ⟨i, -, hi⟩ | ⟨-, ht⟩
      · exact .inr (.inr (.inl ⟨i, hi⟩))
      · exact .inr (.inr (.inr (.inl ht)))
    | read v =>
      rcases hostRead_next h with ⟨x, -, ht⟩ | ⟨f, -, ht⟩
      · exact .inr (.inr (.inr (.inr (.inl ⟨x, ht⟩))))
      · exact .inr (.inr (.inr (.inr (.inr (.inr ⟨f, ht⟩)))))
    | reset => injection h with h; exact .inr (.inr (.inr (.inr (.inr (.inl h.symm)))))

end Sys2Proof.Machine
end

