-- ==== Sys2Proof/Machine/Assembler.lean ====
section
/-! DEFINITION. The assembler syntax of spec/30_encoding.md R68 as host actions: the lines that stand for
one action by another name, and the pseudo-instructions with their expansions. -/

namespace Sys2Proof.Machine

/-- An operation's mnemonic: the host writes CMD with its code (R68). -/
def asmOp (i : Instr) : HostAction := .command (encode i)

/-- `SET VER, (major, minor, patch)`: the host writes VER0, VER1, VER2 (R68). -/
def asmSetVer (major minor patch : Nat) : List HostAction :=
  [.set .ver0 major, .set .ver1 minor, .set .ver2 patch]

/-- `REQUEST d, (M, m, p), t, i` (R68): the payload-less request frame. -/
def asmRequest (d major minor patch t i : Nat) : List HostAction :=
  [.load [], .set .dev d] ++ asmSetVer major minor patch ++
    [.set .mtype t, .set .mid i, asmOp .requestFrame]

/-- `FRAME_PAYLOAD d, t, i, [bytes]` (R68). -/
def asmFramePayload (d t i : Nat) (bs : List Byte) : List HostAction :=
  [.load bs, .set .dev d, .set .mtype t, .set .mid i, asmOp .frame]

end Sys2Proof.Machine
end

