-- ==== Sys2Proof/Tests/Slice0.lean ====
section
/-! SUPPORT. The model's own tests. Expected values are those of spec/95_test_vectors.md, whose vector each
test names, or of the encoding table R55. The second half gives, for each statement of the obligations
that has hypotheses, a state and operands that meet all of them. -/

namespace Sys2Proof.Tests

open Sys2Proof.Machine

/-! ### Command words (R54, R55): UNIT in bits 7..4, FUNC in bits 3..0 -/

theorem test_decode_escape : decode 0b00000001#8 = .ok .escape := by decide

theorem test_decode_unescape : decode 0b00000010#8 = .ok .unescape := by decide

theorem test_decode_frame : decode 0b00010001#8 = .ok .frame := by decide

theorem test_decode_requestFrame : decode 0b00010010#8 = .ok .requestFrame := by decide

theorem test_decode_classify : decode 0b00010011#8 = .ok .classify := by decide

theorem test_decode_stepDecode : decode 0b00100001#8 = .ok .stepDecode := by decide

theorem test_decode_patternDecode : decode 0b00100010#8 = .ok .patternDecode := by decide

/-- Vectors X1, X3, X5: reserved words are rejected by name. -/
theorem test_decode_reserved :
    decode 0x00#8 = .error (.reservedFunc 0x0#4 0x0#4) ∧
    decode 0x14#8 = .error (.reservedFunc 0x1#4 0x4#4) ∧
    decode 0x31#8 = .error (.reservedUnit 0x3#4) := by decide

/-! ### Well-formedness: an ill-formed host action for each check (R26, R115) -/

theorem test_illFormed_load :
    ¬ (HostAction.load (List.replicate (Config.maxIn + 1) 0x00#8)).WellFormed := by
  simp [HostAction.WellFormed]

theorem test_illFormed_dev : ¬ (HostAction.set .dev 16).WellFormed := by decide

theorem test_illFormed_byte : ¬ (HostAction.set .sb 256).WellFormed := by decide

theorem test_wellFormed_dev : (HostAction.set .dev 15).WellFormed := by decide

theorem test_wellFormed_instr (i : Instr) : i.WellFormed := by cases i <;> decide

/-! ### A state with every operand written -/

/-- Every operand register holds a value, IN the sequence given, and M = 0x01, P = 0x02. -/
def demo (bs : List Byte) : State :=
  { State.reset.putInput bs with
    dev := .full 0x5#4, mtype := .full 0x10#8, mid := .full 0x02#8, ver0 := .full 0x01#8,
    ver1 := .full 0x02#8, ver2 := .full 0x03#8, sb := .full 0x31#8, cfgMfr := 0x01#8,
    cfgProd := 0x02#8 }

/-- `demo` with one host action to come. -/
def demoNext (bs : List Byte) (a : HostAction) : State := { demo bs with pending := [a] }

theorem demo_holds (bs : List Byte) : (demo bs).InHolds bs :=
  State.putInput_inHolds State.reset bs

/-- `D` of spec/95_test_vectors.md section 2.6. -/
def payloadD : List Byte :=
  [0x00#8, 0x08#8, 0x31#8] ++ List.replicate 63 0x00#8 ++ [0x1D#8] ++ List.replicate 702 0x00#8 ++
    [0xFF#8] ++ List.replicate 34 0x00#8 ++ [0x78#8] ++ List.replicate 84 0x00#8

theorem payloadD_passes : PassesGuard payloadD :=
  ⟨by decide +kernel, by decide +kernel, by decide +kernel⟩

/-- What an outcome's next state shows of OUT. -/
def outOf : Result → Option (List Byte)
  | .next t => match t.outputBytes with
    | .ok bs => some bs
    | .error _ => none
  | _ => none

/-- What an outcome's next state shows of a field. -/
def fieldOf {α : Type} (f : State → α) : Result → Option α
  | .next t => some (f t)
  | _ => none

/-! ### One step each: the vectors of spec/95_test_vectors.md -/

/-- Vector E6. -/
theorem test_escape_E6 : outOf (exec .escape (demo [0x90#8, 0x01#8, 0xFF#8])) =
    some [0x05#8, 0x10#8, 0x01#8, 0x7F#8] := by decide +kernel

/-- Vector E9, across the group boundary. -/
theorem test_escape_E9 : outOf (exec .escape (demo (List.replicate 8 0xFF#8))) =
    some [0x7F#8, 0x7F#8, 0x7F#8, 0x7F#8, 0x7F#8, 0x7F#8, 0x7F#8, 0x7F#8, 0x01#8, 0x7F#8] := by
  decide +kernel

/-- Vector U10: the uncorrected formula of C1 would give another result. -/
theorem test_unescape_U10 :
    outOf (exec .unescape
      (demo [0x7F#8, 0x40#8, 0x40#8, 0x40#8, 0x40#8, 0x40#8, 0x40#8, 0x40#8])) =
    some (List.replicate 7 0xC0#8) := by decide +kernel

/-- Vector U8: a final chunk that is a mask byte alone is dropped. -/
theorem test_unescape_U8 : outOf (exec .unescape (demo (List.replicate 8 0x7F#8 ++ [0x01#8]))) =
    some (List.replicate 7 0xFF#8) := by decide +kernel

/-- Vector F1. -/
theorem test_frame_F1 : outOf (exec .frame (demo [0x11#8])) =
    some [0x00#8, 0x20#8, 0x01#8, 0x02#8, 0x05#8, 0x10#8, 0x02#8, 0x11#8] := by decide +kernel

/-- Vector Q2's layout, with the version bytes of Q1. -/
theorem test_requestFrame : outOf (exec .requestFrame (demo [0x00#8, 0x7F#8])) =
    some [0x00#8, 0x20#8, 0x01#8, 0x02#8, 0x05#8, 0x10#8, 0x02#8, 0x30#8, 0x00#8, 0x00#8, 0x00#8,
      0x01#8, 0x02#8, 0x03#8, 0x00#8, 0x7F#8] := by decide +kernel

/-- Vector K2: the device ID is not compared. -/
theorem test_classify_K2 :
    fieldOf (fun t => (t.rtype.value, t.rid.value, t.status))
      (exec .classify (demo [0x00#8, 0x20#8, 0x01#8, 0x02#8, 0x7F#8, 0x06#8, 0x02#8])) =
    some (some 0x06#8, some 0x02#8, 0x01#8) := by decide +kernel

/-- Vector K3: six bytes are too few although the header matches. -/
theorem test_classify_K3 :
    fieldOf (fun t => (t.rtype.value, t.rid.value, t.status))
      (exec .classify (demo [0x00#8, 0x20#8, 0x01#8, 0x02#8, 0x05#8, 0x10#8])) =
    some (some 0xFF#8, some 0xFF#8, 0x02#8) := by decide +kernel

/-- Vector T1. -/
theorem test_stepDecode_T1 :
    fieldOf (fun t => (t.stOn.value, t.stProb.value, t.stFlam.value,
        t.stRep.value, t.stRcnt.value)) (exec .stepDecode (demo [])) =
    some (some true, some false, some false, some true, some 1#2) := by decide +kernel

/-- Vectors T4, T5, T6. -/
theorem test_stepDecode_records :
    stepDecode 0x82#8 = ⟨false, false, false, false, 0#2⟩ ∧
    stepDecode 0x60#8 = ⟨false, false, false, false, 3#2⟩ ∧
    stepDecode 0x1D#8 = ⟨true, true, true, true, 0#2⟩ := by decide

/-- Vector P1: the three steps of `D` that are not zero, at indices 2, 66 and 769. -/
theorem test_patternDecode_P1 :
    fieldOf (fun t => t.patStep.value.map fun g =>
        (g[Track.accent.index][(0 : Fin 64)], g[Track.bassDrum.index][(0 : Fin 64)],
          g[Track.closedHat.index][(63 : Fin 64)]))
      (.next ((demo payloadD).afterPattern payloadD)) =
    some (some (⟨true, false, false, true, 1#2⟩, ⟨true, true, true, true, 0#2⟩,
      ⟨true, true, true, true, 3#2⟩)) := by decide +kernel

/-- Vector P5: no bytes at all, the length test first, and an earlier grid is gone. -/
theorem test_patternDecode_P5 :
    fieldOf (fun t => (t.status, t.patStep.value.isSome, t.patScalar.value.isSome))
      (exec .patternDecode ((demo []).putPattern (Vector.replicate 12 (Vector.replicate 64
        ⟨true, true, true, true, 3#2⟩)) (PerField.ofFn fun _ => []))) =
    some (0x03#8, false, false) := by decide +kernel

/-- Vector P7: the test of byte 0 comes before the test of byte 1. -/
theorem test_guard_P7 :
    (match decodePattern ([0x01#8, 0x07#8] ++ List.replicate 887 0x00#8) with
      | .error c => some c
      | .ok _ => none) = some .patBadGuard0 := by decide +kernel

/-- Program 6: ESCAPE right after reset; the model records UnwrittenOperand(IN), STATUS stays NONE, OUT
holds no value. -/
theorem test_program6 :
    step (State.reset.withFetchWord 8 0x01) =
      .next { State.reset with faults := [.unwrittenOperand .input] } ∧
      State.reset.status = 0x00#8 ∧ State.reset.outBuf.value = none := ⟨rfl, rfl, rfl⟩

/-- Program 6: the run is not finished. -/
theorem test_program6_unfinished (t : State) : ¬ Finishes [asmOp .escape] State.reset t := by
  rintro ⟨h, -, hf⟩
  injection h with h
  subst h
  cases hf

/-- Vector X6. -/
theorem test_reserved_X6 :
    step (State.reset.withFetchWord 8 0xFF) = .next { State.reset with status := 0x06#8 } := by rfl

/-- R68: `REQUEST 0x0, (1, 2, 3), 0x08, 0x00` of Program 5. -/
theorem test_asmRequest : asmRequest 0 1 2 3 8 0 =
    [.load [], .set .dev 0, .set .ver0 1, .set .ver1 2, .set .ver2 3, .set .mtype 8, .set .mid 0,
      .command 0x12#8] := by decide

/-- R68: `FRAME_PAYLOAD d, t, i, [bytes]`. -/
theorem test_asmFramePayload : asmFramePayload 3 16 2 [0x01#8] =
    [.load [0x01#8], .set .dev 3, .set .mtype 16, .set .mid 2, .command 0x11#8] := by decide

/-- R116: the last two actions of Program 4 finish from reset. -/
theorem test_finishes : ∃ t, Finishes [.set .sb 0x60, asmOp .stepDecode] State.reset t ∧
    t.stRcnt.value = some 3#2 ∧ t.stRep.value = some false := ⟨_, ⟨rfl, rfl, rfl⟩, rfl, rfl⟩

/-- The stand-in layout is one R95 admits. -/
theorem test_standInLayout : Config.standInLayout.Admissible := by decide +kernel

/-! ### Witnesses: the hypotheses of each statement can be met together -/

theorem witness_StepRunsCommand :
    (demoNext [] (.command 0x21#8)).pending = .command 0x21#8 :: [] ∧
      decode 0x21#8 = .ok .stepDecode ∧ decodeTableWord 8 0x22 = some .patternDecode :=
  ⟨rfl, by decide, by decide⟩

/-- The reserved words next to the first and the last assigned one. -/
theorem witness_ReservedCommandReportsBadOp :
    (demoNext [] (.command 0x00#8)).pending = .command 0x00#8 :: [] ∧
      0x00#8 ∉ [0x01#8, 0x02#8, 0x11#8, 0x12#8, 0x13#8, 0x21#8, 0x22#8] ∧
      0x23#8 ∉ [0x01#8, 0x02#8, 0x11#8, 0x12#8, 0x13#8, 0x21#8, 0x22#8] :=
  ⟨rfl, by decide, by decide⟩

theorem witness_BlockWaitsForHost : State.reset.pending = [] := rfl

/-- IN that holds a short group, a full group, a group and one byte, and nothing at all. -/
theorem witness_EscapeWritesMaskedGroups :
    (demo [0x90#8, 0x01#8, 0xFF#8]).InHolds [0x90#8, 0x01#8, 0xFF#8] ∧
      (demo (List.replicate 7 0x80#8)).InHolds (List.replicate 7 0x80#8) ∧
      (demo (List.replicate 8 0xFF#8)).InHolds (List.replicate 8 0xFF#8) ∧ (demo []).InHolds [] :=
  ⟨demo_holds _, demo_holds _, demo_holds _, demo_holds _⟩

theorem witness_StepTakesActionsInOrder :
    (demoNext [] .reset).pending = .reset :: [] ∧ (∃ t, step (demoNext [] .reset) = .next t) ∧
      ∀ v, HostAction.reset ≠ .read v := ⟨rfl, ⟨_, rfl⟩, fun _ h => by cases h⟩

/-- The reset state's IN holds no value: the fault clauses of ESCAPE, UNESCAPE, CLASSIFY, FRAME and
REQUEST_FRAME. -/
theorem witness_inBuf_none : State.reset.inBuf.value = none := rfl

/-- An IN that holds a short group; the units are arbitrary. -/
theorem witness_ByteSerialFormsEqualFunctional :
    (demo [0x90#8, 0x01#8]).InHolds [0x90#8, 0x01#8] := demo_holds _

/-- The least index that is not below IN_LEN. -/
theorem witness_NoReadBeyondInput :
    ∃ m, (demo [0x90#8]).inBuf.value = some m ∧ (demo [0x90#8]).inLen.value = some 1 ∧ 1 ≤ 1 :=
  ⟨_, rfl, rfl, Nat.le_refl 1⟩

theorem witness_input_unwritten : State.reset.Unwritten .input := by
  rintro bs ⟨h, -⟩
  cases h

theorem witness_UnescapeRestoresHighBits :
    (demo [0x02#8, 0x00#8, 0x00#8]).InHolds [0x02#8, 0x00#8, 0x00#8] ∧
      [0x02#8, 0x00#8, 0x00#8][8 * 0]? = some 0x02#8 ∧
      [0x02#8, 0x00#8, 0x00#8][8 * 0 + 1 + 1]? = some 0x00#8 ∧
      (demo [0x05#8]).InHolds [0x05#8] :=
  ⟨demo_holds _, rfl, rfl, demo_holds _⟩

theorem witness_EscapeOutputIsSevenBit : (demo [0xFF#8]).InHolds [0xFF#8] := demo_holds _

/-- Vector E12 with its output loaded into IN. -/
theorem witness_UnescapeUndoesEscape :
    (demo [0x00#8, 0x80#8]).InHolds [0x00#8, 0x80#8] ∧
      (demo (escape [0x00#8, 0x80#8])).InHolds (escape [0x00#8, 0x80#8]) :=
  ⟨demo_holds _, demo_holds _⟩

/-- A valid sequence (U3) and one that is not valid for each of the three conditions (U5, U2, U4). -/
theorem witness_EscapeUndoesUnescapeOnValid :
    (demo [0x01#8, 0x00#8]).InHolds [0x01#8, 0x00#8] ∧ ValidEscaped [0x01#8, 0x00#8] ∧
      ¬ ValidEscaped [0x80#8, 0x11#8] ∧ ¬ ValidEscaped [0x05#8] ∧ ¬ ValidEscaped [0x02#8, 0x00#8] ∧
      (demo (unescape [0x01#8, 0x00#8])).InHolds (unescape [0x01#8, 0x00#8]) := by
  refine ⟨demo_holds _, ⟨by decide, by decide, fun mask _ h i h1 h2 => ?_⟩,
    fun h => absurd (h.1 0x80#8 (by simp)) (by decide), fun h => absurd rfl h.2.1,
    fun h => absurd (h.2.2 0x02#8 (by decide) rfl 1 (by decide) (by decide)) (by decide),
    demo_holds _⟩
  injection h with h
  subst h
  have h1' : 1 ≤ i := h1
  interval_cases i <;> rfl

/-- U4 and its valid neighbour differ only in a mask bit whose payload byte is absent. -/
theorem witness_UnescapeIgnoresBitsWithoutData :
    (demo [0x02#8, 0x00#8]).InHolds [0x02#8, 0x00#8] ∧
      (demo [0x80#8, 0x00#8]).InHolds [0x80#8, 0x00#8] ∧
      (∀ c i, i < 7 → [0x02#8, 0x00#8][8 * c + 1 + i]? = [0x80#8, 0x00#8][8 * c + 1 + i]?) ∧
      (∀ c i mask mask', i < 7 → [0x02#8, 0x00#8][8 * c]? = some mask →
        [0x80#8, 0x00#8][8 * c]? = some mask' → 8 * c + 1 + i < [0x02#8, 0x00#8].length →
        mask.getLsbD i = mask'.getLsbD i) := by
  refine ⟨demo_holds _, demo_holds _, fun c i _ => ?_, fun c i mask mask' _ h h' hl => ?_⟩
  · rw [show 8 * c + 1 + i = (8 * c + i) + 1 by omega]
    rfl
  · have hl : 8 * c + 1 + i < 2 := hl
    obtain rfl : c = 0 := by omega
    obtain rfl : i = 0 := by omega
    injection h with h
    injection h' with h'
    subst h h'
    rfl

theorem witness_StreamRegistersAreInvisible :
    (∃ t, exec .escape (demo [0x80#8]) = .next t) ∧
      exec .stepDecode State.reset =
        .next { State.reset with faults := [.unwrittenOperand (.operand .sb)] } :=
  ⟨⟨_, execEscape_of_holds (demo_holds _)⟩, rfl⟩

theorem witness_FrameWritesHeaderAndPayload :
    (demo [0x11#8]).dev.value = some 0x5#4 ∧ (demo [0x11#8]).mtype.value = some 0x10#8 ∧
      (demo [0x11#8]).mid.value = some 0x02#8 ∧ (demo [0x11#8]).InHolds [0x11#8] ∧
      State.reset.dev.value = none :=
  ⟨rfl, rfl, rfl, demo_holds _, rfl⟩

theorem witness_RequestFrameWritesMagicAndVersion :
    (demo []).dev.value = some 0x5#4 ∧ (demo []).ver0.value = some 0x01#8 ∧ (demo []).ver1.value = some 0x02#8 ∧
      (demo []).ver2.value = some 0x03#8 ∧ (demo []).mtype.value = some 0x10#8 ∧ (demo []).mid.value = some 0x02#8 ∧
      (demo []).InHolds [] ∧ State.reset.ver2.value = none :=
  ⟨rfl, rfl, rfl, rfl, rfl, rfl, demo_holds _, rfl⟩

/-- Seven bytes of this protocol (the least length), and K3's six that are not. -/
theorem witness_ClassifyReturnsTypeAndId :
    IsOurs (demo []).cfgMfr (demo []).cfgProd
        [0x00#8, 0x20#8, 0x01#8, 0x02#8, 0x05#8, 0x10#8, 0x02#8] ∧
      ¬ IsOurs (demo []).cfgMfr (demo []).cfgProd [0x00#8, 0x20#8, 0x01#8, 0x02#8, 0x05#8, 0x10#8] ∧
      (demo [0x00#8, 0x20#8, 0x01#8, 0x02#8, 0x05#8, 0x10#8, 0x02#8]).InHolds
        [0x00#8, 0x20#8, 0x01#8, 0x02#8, 0x05#8, 0x10#8, 0x02#8] :=
  ⟨⟨by decide, rfl, rfl, rfl, rfl⟩, fun h => absurd h.1 (by decide), demo_holds _⟩

/-- Vectors K6 and K7. -/
theorem witness_SentinelToldApartByStatusOnly :
    (demo [0x00#8, 0x20#8, 0x01#8, 0x02#8, 0x00#8, 0xFF#8, 0xFF#8]).InHolds
        [0x00#8, 0x20#8, 0x01#8, 0x02#8, 0x00#8, 0xFF#8, 0xFF#8] ∧ (demo []).InHolds [] ∧
      IsOurs (demo []).cfgMfr (demo []).cfgProd
        [0x00#8, 0x20#8, 0x01#8, 0x02#8, 0x00#8, 0xFF#8, 0xFF#8] ∧
      ¬ IsOurs (demo []).cfgMfr (demo []).cfgProd [] :=
  ⟨demo_holds _, demo_holds _, ⟨by decide, rfl, rfl, rfl, rfl⟩, fun h => absurd h.1 (by decide)⟩

theorem witness_ClassifyRecognisesFrames :
    ∃ t out, exec .frame (demo [0x11#8]) = .next t ∧ t.faults = (demo [0x11#8]).faults ∧
      t.OutHolds out ∧ (demo out).InHolds out ∧
      (demo out).cfgMfr = (demo [0x11#8]).cfgMfr ∧ (demo out).cfgProd = (demo [0x11#8]).cfgProd :=
  ⟨_, _, execFrame_of_holds rfl rfl rfl (demo_holds _), rfl,
    State.putOutput_outHolds (demo [0x11#8]) _, demo_holds _, rfl, rfl⟩

theorem witness_StepDecodeReadsItsBits :
    (demo []).sb.value = some 0x31#8 ∧ 0xB3#8 &&& 0x7D#8 = 0x31#8 &&& 0x7D#8 ∧
      State.reset.sb.value = none :=
  ⟨rfl, by decide, rfl⟩

/-- The payload `D` for the statements about a pattern that passes the guard, its first and last step. -/
theorem witness_PatternDecodeReadsRowMajor :
    (demo payloadD).InHolds payloadD ∧ PassesGuard payloadD ∧
      payloadD[2 + 64 * (0 : Fin 12).val + (0 : Fin 64).val]? = some 0x31#8 ∧
      payloadD[2 + 64 * (11 : Fin 12).val + (63 : Fin 64).val]? = some 0xFF#8 :=
  ⟨demo_holds _, payloadD_passes, by decide +kernel, by decide +kernel⟩

/-- Lengths 888 and 890, byte 0 wrong, byte 1 wrong, and the guard passed. -/
theorem witness_PatternDecodeFailsClosed :
    (List.replicate 888 0x00#8 : List Byte).length ≠ 889 ∧
      (List.replicate 890 0x00#8 : List Byte).length ≠ 889 ∧
      (0x01#8 :: List.replicate 888 0x00#8)[0]? ≠ some 0x00#8 ∧
      (0x00#8 :: 0x07#8 :: List.replicate 887 0x00#8).length = 889 ∧
      (0x00#8 :: 0x07#8 :: List.replicate 887 0x00#8)[1]? ≠ some 0x08#8 ∧
      (demo payloadD).InHolds payloadD ∧ PassesGuard payloadD := by
  refine ⟨by decide +kernel, by decide +kernel, by decide +kernel, by decide +kernel,
    by decide +kernel, demo_holds _, payloadD_passes⟩

theorem witness_ScalarLayoutIsAdmitted : (demo payloadD).InHolds payloadD ∧ PassesGuard payloadD ∧
    0 < Config.standInLayout.filterSteps.width / 64 :=
  ⟨demo_holds _, payloadD_passes, by decide⟩

/-- P8: index 780 and bits 1 and 7 of byte 2 changed. -/
def payloadP8 : List Byte := (payloadD.set 780 0xAA#8).set 2 0xB3#8

theorem witness_UnreadPayloadCannotMatter :
    (demo payloadD).InHolds payloadD ∧ (demo payloadP8).InHolds payloadP8 ∧ PassesGuard payloadD ∧
      PassesGuard payloadP8 ∧ payloadD ≠ payloadP8 ∧
      ∀ k b b', 2 ≤ k → k < 770 → payloadD[k]? = some b → payloadP8[k]? = some b' →
        b &&& 0x7D#8 = b' &&& 0x7D#8 := by
  refine ⟨demo_holds _, demo_holds _, payloadD_passes,
    ⟨by decide +kernel, by decide +kernel, by decide +kernel⟩, by decide +kernel,
    fun k b b' h2 h770 h h' => ?_⟩
  simp only [payloadP8, List.getElem?_set] at h'
  split at h'
  · rename_i hk
    subst hk
    split at h'
    · injection h' with h'
      subst h'
      have : payloadD[2]? = some 0x31#8 := by decide +kernel
      rw [this] at h
      injection h with h
      subst h
      decide
    · cases h'
  · rw [if_neg (by omega), h] at h'
    injection h' with h'
    rw [h']

theorem witness_EscapedPatternIsRejected :
    (demo payloadD).InHolds payloadD ∧ payloadD.length = 889 ∧
      (demo (escape payloadD)).InHolds (escape payloadD) :=
  ⟨demo_holds _, payloadD_passes.1, demo_holds _⟩

/-- One state in which the operands of all seven operations hold values. -/
theorem witness_OperationsComplete (i : Instr) :
    ∀ r ∈ operandsRead i, ¬ (demo [0x11#8]).Unwritten r := by
  have hin : ¬ (demo [0x11#8]).Unwritten .input := fun h => h _ (demo_holds _)
  cases i <;> simp [operandsRead, hin] <;> simp [demo, State.Unwritten]

theorem witness_UnwrittenOperandsFault :
    (∃ r ∈ operandsRead .escape, State.reset.Unwritten r) ∧
      ∃ t, exec .escape State.reset = .next t ∧ t.faults ≠ State.reset.faults :=
  ⟨⟨.input, by decide, witness_input_unwritten⟩, _, rfl, State.recordFault_faults_ne _ _⟩

/-- Two states that differ in the bits of registers that hold no value: as reset leaves them,
and with other bits. -/
theorem witness_BitsWithoutValueAreInvisible :
    SameValues State.reset { State.reset with dev := .empty 0x9#4, outBuf := .empty [(0, 0xFF#8)] } ∧
      State.reset ≠ { State.reset with dev := .empty 0x9#4, outBuf := .empty [(0, 0xFF#8)] } :=
  ⟨by repeat' constructor, fun h => by simpa [State.reset, Register.empty] using congrArg State.dev h⟩

/-- A step that keeps a recorded fault and one that adds one. -/
theorem witness_StepKeepsRecordedFaults :
    (∃ t, step (demoNext [] (.read (.reg .status))) = .next t ∧ t.faults = []) ∧
      ∃ t, step (demoNext [] (.read (.reg .rtype))) = .next t ∧
        t.faults = [.unwrittenOperand (.result .rtype)] := ⟨⟨_, rfl, rfl⟩, _, rfl, rfl⟩

/-- OK by STEP_DECODE, NOT_OURS by CLASSIFY, a failure by PATTERN_DECODE: the next states the statements
about every operation speak of (OperationOutcomes, OperationsKeepOperands, OutputOperationsFrame,
RegisterOperationsFrame, ReadsAndRepeatsChangeNothing). -/
theorem witness_next_states :
    (∃ t, exec .stepDecode (demo []) = .next t ∧ t.status = 0x01#8) ∧
      (∃ t, exec .classify (demo []) = .next t ∧ t.status = 0x02#8) ∧
      (∃ t, exec .patternDecode (demo []) = .next t ∧ t.status = 0x03#8) ∧
      (∃ t, exec .escape (demo []) = .next t) ∧ (∃ t, exec .unescape (demo []) = .next t) ∧
      (∃ t, exec .frame (demo []) = .next t) ∧ ∃ t, exec .requestFrame (demo []) = .next t :=
  ⟨⟨_, rfl, rfl⟩, ⟨_, execClassify_of_holds (demo_holds _), rfl⟩,
    ⟨_, execPatternDecode_of_holds (demo_holds _), rfl⟩, ⟨_, execEscape_of_holds (demo_holds _)⟩,
    ⟨_, execUnescape_of_holds (demo_holds _)⟩, ⟨_, execFrame_of_holds rfl rfl rfl (demo_holds _)⟩,
    ⟨_, execRequestFrame_of_holds rfl rfl rfl rfl rfl rfl (demo_holds _)⟩⟩

/-- Guard bytes wrong: the other two failures. -/
theorem witness_FailuresArePrecise :
    (∃ t, exec .patternDecode (demo (0x01#8 :: List.replicate 888 0x00#8)) = .next t ∧
        t.faults = [] ∧ t.status = 0x04#8) ∧
      ∃ t, exec .patternDecode (demo (0x00#8 :: 0x07#8 :: List.replicate 887 0x00#8)) = .next t ∧
        t.faults = [] ∧ t.status = 0x05#8 := by
  refine ⟨⟨_, execPatternDecode_of_holds (demo_holds _), by decide +kernel, by decide +kernel⟩,
    ⟨_, execPatternDecode_of_holds (demo_holds _), by decide +kernel, by decide +kernel⟩⟩

/-- Two states that agree on the operands and differ in an earlier result. -/
theorem witness_ResultsDependOnOperandsOnly :
    SameOperands (demo []) ((demo []).putClass sentinel) ∧
      ∃ t, exec .escape (demo []) = .next t ∧ t.faults = (demo []).faults :=
  ⟨⟨rfl, rfl, rfl, rfl, rfl, rfl, rfl, rfl, rfl, rfl, rfl⟩, _, execEscape_of_holds (demo_holds _), rfl⟩

theorem witness_ReadsAndRepeatsChangeNothing :
    (demoNext [] (.read (.reg .status))).pending = .read (.reg .status) :: [] ∧
      (∃ t, step (demoNext [] (.read (.reg .status))) = .next t) ∧
      ∃ t, exec .stepDecode (demo []) = .next t ∧ t.faults = (demo []).faults :=
  ⟨rfl, ⟨_, rfl⟩, _, rfl, rfl⟩

/-- The longest load that fits, and the shortest that does not. -/
theorem witness_LoadFillsInput :
    (demoNext [] (.load (List.replicate Config.maxIn 0x00#8))).pending =
        .load (List.replicate Config.maxIn 0x00#8) :: [] ∧
      (List.replicate Config.maxIn 0x00#8 : List Byte).length ≤ Config.maxIn ∧
      Config.maxIn < (List.replicate (Config.maxIn + 1) 0x00#8 : List Byte).length :=
  ⟨rfl, by simp, by simp⟩

/-- `SET` at the bounds of the clauses: DEV 15 and 16, MTYPE 255 and 256. -/
theorem witness_SetWritesOneOperand :
    step (demoNext [] (.set .dev 15)) = .next { demo [] with dev := .full 0xF#4 } ∧
      step (demoNext [] (.set .dev 16)) = .refused (.operandTooWide .dev 16) ∧
      step (demoNext [] (.set .mtype 255)) = .next { demo [] with mtype := .full 0xFF#8 } ∧
      step (demoNext [] (.set .mtype 256)) = .refused (.operandTooWide .mtype 256) :=
  ⟨rfl, rfl, rfl, rfl⟩

/-- OUT holds four bytes, of which the slice takes two; and OUT holds no value. -/
theorem witness_MoveCopiesOutput :
    { (demo []).putOutput [0x05#8, 0x10#8, 0x01#8, 0x7F#8] with pending := [.move] }.OutHolds
        [0x05#8, 0x10#8, 0x01#8, 0x7F#8] ∧
      [0x01#8, 0x7F#8].length = min 9 [0x05#8, 0x10#8, 0x01#8, 0x7F#8].length - 2 ∧
      (∀ k, k < [0x01#8, 0x7F#8].length →
        [0x01#8, 0x7F#8][k]? = [0x05#8, 0x10#8, 0x01#8, 0x7F#8][2 + k]?) ∧
      [0x01#8, 0x7F#8].length ≤ Config.maxIn ∧
      ((demo []).putOutput (List.replicate (Config.maxIn + 1) 0x00#8)).OutHolds
        (List.replicate (Config.maxIn + 1) 0x00#8) ∧
      (demoNext [] .move).outBuf.value = none := by
  refine ⟨State.putOutput_outHolds (demo []) _, rfl, fun k hk => ?_, ?_,
    State.putOutput_outHolds (demo []) _, rfl⟩
  · have hk : k < 2 := hk
    interval_cases k <;> rfl
  · show 2 ≤ Config.maxInSlack + 1032
    omega

/-- A register that holds a value, and one that holds none. -/
theorem witness_HostReadsReturnOrFault :
    (demoNext [] (.read (.reg .status))).Shows (.reg .status) (.byte 0x00#8) ∧
      ((demo payloadD).afterPattern payloadD).Lacks (.reg .rtype) .rtype ∧
      (∃ x, ((demo []).afterStep 0x60#8).Shows (.reg .stRcnt) x) ∧
      (∃ x, ((demo []).putOutput []).Shows (.reg .out) x) ∧
      (∃ x, ((demo []).putPattern (Vector.replicate 12 (Vector.replicate 64
        ⟨true, true, true, true, 3#2⟩)) (PerField.ofFn fun _ => [0x01#8])).Shows
          (.truth .filterEnable) x) ∧
      (demo []).Lacks (.filterEntry 63) (.patScalar .filterSteps) :=
  ⟨rfl, ⟨by decide +kernel, rfl⟩, ⟨_, 3#2, rfl, rfl⟩, ⟨_, [], State.putOutput_outHolds (demo []) [], rfl⟩,
    ⟨_, _, rfl, rfl⟩, ⟨rfl, rfl⟩⟩

theorem witness_ResetClearsRegisters : (demoNext [] .reset).pending = .reset :: [] := rfl

/-- The least number of bytes that LOAD, MOVE and the slice LOAD refuse. -/
@[irreducible] def tooLong : List Byte := List.replicate (Config.maxIn + 1) 0x00#8

theorem tooLong_length : tooLong.length = Config.maxIn + 1 := by
  unfold tooLong
  exact List.length_replicate

/-- OUT holds one byte more than IN can take, and the slice is all of it. -/
theorem witness_MoveCopiesOutput_refused :
    { (demo []).putOutput tooLong with pending := [.loadSlice 0 tooLong.length] }.OutHolds tooLong ∧
      tooLong.length = min tooLong.length tooLong.length - 0 ∧
      (∀ k, k < tooLong.length → tooLong[k]? = tooLong[0 + k]?) ∧ Config.maxIn < tooLong.length :=
  ⟨State.putOutput_outHolds (demo []) _, by simp, fun k _ => by rw [Nat.zero_add], by
    rw [tooLong_length]; omega⟩

/-- A refusal by each of the four actions that can be refused, each at its least excess. -/
theorem witness_RefusalsAreTheHosts :
    step (demoNext [] (.set .dev 16)) = .refused (.operandTooWide .dev 16) ∧
      step (demoNext [] (.load tooLong)) = .refused (.loadTooLong tooLong.length) ∧
      step { (demo []).putOutput tooLong with pending := [.move] } =
        .refused (.loadTooLong tooLong.length) ∧
      step { (demo []).putOutput tooLong with pending := [.loadSlice 0 tooLong.length] } =
        .refused (.loadTooLong tooLong.length) := by
  have ho := State.putOutput_outHolds (demo []) tooLong
  have hl : Config.maxIn < tooLong.length := by rw [tooLong_length]; omega
  refine ⟨rfl, loadInput_of_long hl _, (moveOutput_of_holds ho).trans (loadInput_of_long hl _),
    (loadOutputSlice_of_holds ho _ _).trans ?_⟩
  rw [show slice tooLong 0 tooLong.length = tooLong by simp [slice]]
  exact loadInput_of_long hl _

/-- A state after an ESCAPE that meets every invariant, and a step from it that answers a next state. -/
theorem witness_invariants :
    ∃ s t : State, s.StatusLegal ∧ s.BuffersAgree ∧ s.WithinCapacity ∧ s.StreamsAtRest ∧
      s.PatternWhole ∧ step s = .next t := by
  refine ⟨{ ((demo [0x90#8]).afterEscape [0x90#8]) with pending := [.command 0x21#8] }, _,
    ⟨.ok, rfl⟩, ⟨bufferAgrees_ofBytes [0x90#8], bufferAgrees_ofBytes (escape [0x90#8])⟩, ⟨?_, ?_⟩,
    ⟨rfl, rfl, rfl⟩, ⟨rfl, fun v h => by cases h⟩, rfl⟩
  · intro n h
    injection h with h
    subst h
    show 1 ≤ Config.maxInSlack + 1032
    omega
  · intro n h
    have : n = 2 := by
      injection h with h
      exact h.symm
    subst this
    unfold outCapacity Config.maxIn
    omega

end Sys2Proof.Tests
end

section
/-! SUPPORT. The effect of an operation as an update of the state, read off the operands alone: two states
whose operands hold the same values take the same update. Every frame and noninterference statement about
`exec` is a case split on that update. -/

namespace Sys2Proof.Machine

/-- The operand registers hold the same values in two states, or none in both, and the configuration bytes
are the same (R27, R34). The bits of a register that holds no value may differ (R21). -/
structure OperandsAgree (s u : State) : Prop where
  inBuf : u.inBuf.value = s.inBuf.value
  inLen : u.inLen.value = s.inLen.value
  dev : u.dev.value = s.dev.value
  mtype : u.mtype.value = s.mtype.value
  mid : u.mid.value = s.mid.value
  ver0 : u.ver0.value = s.ver0.value
  ver1 : u.ver1.value = s.ver1.value
  ver2 : u.ver2.value = s.ver2.value
  sb : u.sb.value = s.sb.value
  cfgMfr : u.cfgMfr = s.cfgMfr
  cfgProd : u.cfgProd = s.cfgProd

theorem OperandsAgree.refl (s : State) : OperandsAgree s s :=
  ⟨rfl, rfl, rfl, rfl, rfl, rfl, rfl, rfl, rfl, rfl, rfl⟩

/-- One byte of IN reads alike where IN and IN_LEN hold the same values. -/
theorem memReadIn_congr {s u : State} (hb : u.inBuf.value = s.inBuf.value)
    (hn : u.inLen.value = s.inLen.value) (k : Nat) : u.memReadIn k = s.memReadIn k := by
  rw [State.memReadIn, State.memReadIn, hb, hn]

/-- One byte of OUT reads alike where OUT and OUT_LEN hold the same values. -/
theorem memReadOut_congr {s u : State} (hb : u.outBuf.value = s.outBuf.value)
    (hn : u.outLen.value = s.outLen.value) (k : Nat) : u.memReadOut k = s.memReadOut k := by
  rw [State.memReadOut, State.memReadOut, hb, hn]

/-- The snapshot of IN is the same where IN and IN_LEN hold the same values (R45). -/
theorem inputBytes_congr {s u : State} (hb : u.inBuf.value = s.inBuf.value)
    (hn : u.inLen.value = s.inLen.value) : u.inputBytes = s.inputBytes := by
  rw [State.inputBytes, State.inputBytes, hb, hn, funext (memReadIn_congr hb hn)]

/-- The host reads the same OUT where OUT and OUT_LEN hold the same values. -/
theorem outputBytes_congr {s u : State} (hb : u.outBuf.value = s.outBuf.value)
    (hn : u.outLen.value = s.outLen.value) : u.outputBytes = s.outputBytes := by
  rw [State.outputBytes, State.outputBytes, hb, hn, funext (memReadOut_congr hb hn)]

@[simp] theorem State.afterEscape_eq (s : State) (bs : List Byte) :
    s.afterEscape bs = ((s.putOutput (escape bs)).putEsc (s.esc.run bs).1).complete .ok := rfl

@[simp] theorem State.afterUnescape_eq (s : State) (bs : List Byte) :
    s.afterUnescape bs = ((s.putOutput (unescape bs)).putUnesc (s.unesc.run bs).1).complete .ok := rfl

@[simp] theorem State.afterFrame_eq (s : State) (out : List Byte) :
    s.afterFrame out = (s.putOutput out).complete .ok := rfl

/-- `Effect s i f`: on a state with the operands of `s`, operation `i` is the update `f`. -/
inductive Effect (s : State) : Instr → (State → State) → Prop where
  | escape {bs : List Byte} (h : s.InHolds bs) : Effect s .escape fun u => u.afterEscape bs
  | unescape {bs : List Byte} (h : s.InHolds bs) : Effect s .unescape fun u => u.afterUnescape bs
  | frame {i : Instr} {out bs : List Byte} (hi : i = .frame ∨ i = .requestFrame)
      (h : s.InHolds bs) (hlen : out.length ≤ bs.length + 14) :
      Effect s i fun u => u.afterFrame out
  | classify (ti : Byte × Byte) (c : StatusCode) :
      Effect s .classify fun u => (u.putClass ti).complete c
  | step (d : StepData) : Effect s .stepDecode fun u => (u.putStep d).complete .ok
  | pattern (g : StepGrid) (v : Scalars) :
      Effect s .patternDecode fun u => (u.putPattern g v).complete .ok
  | patternFailure (c : StatusCode) : Effect s .patternDecode fun u => u.clearPattern.complete c
  | fault {i : Instr} {r : Reg} (hr : r ∈ operandsRead i) (hu : s.Unwritten r) :
      Effect s i fun u => u.recordFault (.unwrittenOperand r)

/-- Two results are next states that one effect of operation `i` makes of `s` and of `u`. -/
def SameEffect (i : Instr) (s u : State) (x y : Result) : Prop :=
  ∃ f, Effect s i f ∧ x = .next (f s) ∧ y = .next (f u)

/-- Reading a register that holds the same value in both states, or in neither, carries the same effect of
what follows, or is itself the same fault. -/
theorem need_sameEffect {α : Type} {i : Instr} {s u : State} {r : SetReg} {v w : Register α}
    {k l : α → Result} (hvw : w.value = v.value) (hr : .operand r ∈ operandsRead i)
    (hu : v.value = none → s.Unwritten (.operand r)) (hk : ∀ a, SameEffect i s u (k a) (l a)) :
    SameEffect i s u (need s r v k) (need u r w l) := by
  cases hv : v.value with
  | none =>
    exact ⟨_, .fault hr (hu hv), need_of_noValue hv k, need_of_noValue (hvw.trans hv) l⟩
  | some a =>
    rw [need_of_value hv, need_of_value (hvw.trans hv)]
    exact hk a

/-- Reading the snapshot of IN, where it is the same in both states, carries the same effect of what
follows, or is itself the same fault. -/
theorem needInput_sameEffect {i : Instr} {s u : State} {k l : List Byte → Result}
    (hin : u.inputBytes = s.inputBytes) (hr : .input ∈ operandsRead i)
    (hk : ∀ bs, s.InHolds bs → SameEffect i s u (k bs) (l bs)) :
    SameEffect i s u (needInput s k) (needInput u l) := by
  have transfer : ∀ bs, u.InHolds bs → s.InHolds bs := fun bs hb => by
    rw [← State.inputBytes_eq_ok_iff] at hb ⊢
    exact hin.symm.trans hb
  rcases needInput_cases s k with ⟨bs, hb, h⟩ | ⟨hn, h⟩
  · have hb' : u.InHolds bs := by
      rw [← State.inputBytes_eq_ok_iff] at hb ⊢
      exact hin.trans hb
    rw [h, needInput_of_holds hb']
    exact hk bs hb
  · exact ⟨_, .fault hr hn, h, needInput_of_not_holds (fun bs hb => hn bs (transfer bs hb)) l⟩

/-- An operation has the same effect on two states whose operands agree: it reads nothing else. -/
theorem exec_sameEffect (i : Instr) {s u : State} (h : OperandsAgree s u) :
    SameEffect i s u (exec i s) (exec i u) := by
  have hin := inputBytes_congr h.inBuf h.inLen
  cases i with
  | escape => exact needInput_sameEffect hin (by decide) fun bs hb => ⟨_, .escape hb, rfl, rfl⟩
  | unescape => exact needInput_sameEffect hin (by decide) fun bs hb => ⟨_, .unescape hb, rfl, rfl⟩
  | frame =>
    refine need_sameEffect h.dev (by decide) id fun dev => need_sameEffect h.mtype (by decide) id
      fun mtype => need_sameEffect h.mid (by decide) id fun mid =>
      needInput_sameEffect hin (by decide) fun bs hb => ?_
    rw [h.cfgMfr, h.cfgProd]
    exact ⟨_, .frame (.inl rfl) hb (by simp [plainFrame, frameHeader]), rfl, rfl⟩
  | requestFrame =>
    refine need_sameEffect h.dev (by decide) id fun dev => need_sameEffect h.ver0 (by decide) id
      fun v0 => need_sameEffect h.ver1 (by decide) id fun v1 =>
      need_sameEffect h.ver2 (by decide) id fun v2 => need_sameEffect h.mtype (by decide) id
      fun mtype => need_sameEffect h.mid (by decide) id fun mid =>
      needInput_sameEffect hin (by decide) fun bs hb => ?_
    rw [h.cfgMfr, h.cfgProd]
    exact ⟨_, .frame (.inr rfl) hb (by simp [requestFrameBytes, frameHeader]), rfl, rfl⟩
  | classify =>
    refine needInput_sameEffect hin (by decide) fun bs _ => ?_
    rw [h.cfgMfr, h.cfgProd]
    cases classifyBytes s.cfgMfr s.cfgProd bs with
    | none => exact ⟨_, .classify sentinel .notOurs, rfl, rfl⟩
    | some ti => exact ⟨_, .classify ti .ok, rfl, rfl⟩
  | stepDecode =>
    exact need_sameEffect h.sb (by decide) id fun b => ⟨_, .step (stepDecode b), rfl, rfl⟩
  | patternDecode =>
    refine needInput_sameEffect hin (by decide) fun bs _ => ?_
    cases decodePattern bs with
    | error c => exact ⟨_, .patternFailure c, rfl, rfl⟩
    | ok gv => exact ⟨_, .pattern gv.1 gv.2, rfl, rfl⟩

/-- The next state of an operation is made by one of its effects. -/
theorem exec_effect {i : Instr} {s t : State} (h : exec i s = .next t) :
    ∃ f, Effect s i f ∧ t = f s := by
  obtain ⟨f, hf, hs, -⟩ := exec_sameEffect i (OperandsAgree.refl s)
  rw [h] at hs
  injection hs with hs
  exact ⟨f, hf, hs⟩

end Sys2Proof.Machine
end

section
/-! SUPPORT. What a step keeps: one rule for every invariant, the lengths of what ESCAPE and UNESCAPE
write, and the invariants themselves. -/

namespace Sys2Proof.Machine

/-- A step performs the host's next action (R49). -/
theorem step_of_pending {s : State} {a : HostAction} {rest : List HostAction}
    (h : s.pending = a :: rest) : step s = performAction a (s.dequeue rest) := by
  rw [step, nextAction, h]

/-- A step without an action to come waits (R118). -/
theorem step_of_idle {s : State} (h : s.pending = []) : step s = .next s := by
  rw [step, nextAction, h]

/-- A predicate is kept by every step if taking the action off the host's list and each of the updates of
`step_next` keep it. -/
theorem step_keeps {P : State → Prop}
    (dequeue : ∀ s rest, P s → P (s.dequeue rest))
    (load : ∀ s bs, bs.length ≤ Config.maxIn → P s → P (s.putInput bs))
    (set : ∀ s r v, P s → P (s.putOperand r v))
    (operation : ∀ i s t, P s → exec i s = .next t → P t)
    (reserved : ∀ s, P s → P (s.complete .badOp))
    (read : ∀ s x, P s → P (s.record x))
    (reset : ∀ s, P s → P s.hostReset)
    (fault : ∀ s f, P s → P (s.recordFault f))
    {s t : State} (hs : P s) (h : step s = .next t) : P t := by
  rcases step_next h with ⟨-, rfl⟩ | ⟨a, rest, -, hc⟩
  · exact hs
  · have hd := dequeue s rest hs
    rcases hc with ⟨bs, hl, rfl⟩ | ⟨r, v, -, rfl⟩ | ⟨i, hi⟩ | rfl | ⟨x, rfl⟩ | rfl | ⟨f, rfl⟩
    · exact load _ bs hl hd
    · exact set _ r v hd
    · exact operation i _ t hd hi
    · exact reserved _ hd
    · exact read _ x hd
    · exact reset _ hd
    · exact fault _ f hd

/-- ESCAPE writes one mask byte for each group beside the bytes of its input (R71). -/
theorem escape_length (bs : List Byte) :
    (escape bs).length = bs.length + ceilDiv bs.length 7 := by
  induction bs using group_induction 7 (by decide) with
  | nil => simp [ceilDiv_zero]
  | short grp h0 h => simp [escape_short grp h0 h.le, ceilDiv_short _ _ h0 h.le]
  | full grp rest h ih =>
    rw [escape_append grp rest h, List.length_append, escapeGroup_length, ih, List.length_append, h,
      ceilDiv_add _ _ (by decide)]
    omega

/-- UNESCAPE writes one byte for each payload byte of its input (R73). -/
theorem unescape_length (bs : List Byte) :
    (unescape bs).length = 7 * (bs.length / 8) + (bs.length % 8 - 1) := by
  induction bs using group_induction 8 (by decide) with
  | nil => simp
  | short chunk h0 h =>
    obtain ⟨mask, payload, rfl⟩ := List.exists_cons_of_length_pos h0
    rw [unescape_short _ h0 h.le, unescapeChunk_cons_length]
    simp only [List.length_cons] at h ⊢
    omega
  | full chunk rest h ih =>
    obtain ⟨mask, payload, rfl⟩ := List.exists_cons_of_length_pos (l := chunk) (by omega)
    rw [unescape_append _ rest h, List.length_append, unescapeChunk_cons_length, ih,
      List.length_append, h]
    simp only [List.length_cons] at h
    omega

/-- A longer input needs no fewer groups (R16). -/
theorem ceilDiv_mono {m n : Nat} (d : Nat) (hd : 0 < d) (h : m ≤ n) : ceilDiv m d ≤ ceilDiv n d :=
  (ceilDiv_le_iff m d _ hd).2 (h.trans ((ceilDiv_le_iff n d _ hd).1 le_rfl))

/-- What ESCAPE writes for an input within `P_MAX_IN` fits OUT (R31). -/
theorem escape_fits {bs : List Byte} (h : bs.length ≤ Config.maxIn) :
    (escape bs).length ≤ outCapacity := by
  have hgroups := ceilDiv_mono groupLen (by decide) h
  rw [escape_length, outCapacity]
  exact (Nat.add_le_add h hgroups).trans (Nat.le_add_right _ 14)

/-- What UNESCAPE writes for an input within `P_MAX_IN` fits OUT (R31). -/
theorem unescape_fits {bs : List Byte} (h : bs.length ≤ Config.maxIn) :
    (unescape bs).length ≤ outCapacity := by
  rw [unescape_length, outCapacity]
  omega

/-- An input the block holds is within the capacity IN_LEN is within (R25). -/
theorem State.WithinCapacity.input_length {s : State} (h : s.WithinCapacity) {bs : List Byte}
    (hb : s.InHolds bs) : bs.length ≤ Config.maxIn :=
  h.1 _ hb.1

/-- A state is within capacity if IN_LEN is as before and OUT_LEN is the length of a sequence that fits. -/
theorem State.WithinCapacity.of_output {s t : State} (h : s.WithinCapacity) {out : List Byte}
    (hin : t.inLen = s.inLen) (hout : t.outLen = .full out.length) (hlen : out.length ≤ outCapacity) :
    t.WithinCapacity := by
  refine ⟨fun n hn => h.1 n (hin ▸ hn), fun n hn => ?_⟩
  rw [hout, Register.value_full] at hn
  injection hn with hn
  exact hn ▸ hlen

/-- Every operation keeps IN and OUT within their capacities (R25, R31). -/
theorem exec_keeps_withinCapacity {i : Instr} {s t : State} (hs : s.WithinCapacity)
    (h : exec i s = .next t) : t.WithinCapacity := by
  obtain ⟨f, hf, rfl⟩ := exec_effect h
  cases hf with
  | escape hb => exact hs.of_output rfl rfl (escape_fits (hs.input_length hb))
  | unescape hb => exact hs.of_output rfl rfl (unescape_fits (hs.input_length hb))
  | frame _ hb hlen =>
    have := hs.input_length hb
    exact hs.of_output rfl rfl (by rw [outCapacity]; omega)
  | classify | step | pattern | patternFailure | fault => exact hs

/-- Every operation leaves STATUS a legal value (R29, R30). -/
theorem exec_keeps_statusLegal {i : Instr} {s t : State} (hs : s.StatusLegal)
    (h : exec i s = .next t) : t.StatusLegal := by
  obtain ⟨f, hf, rfl⟩ := exec_effect h
  cases hf with
  | classify _ c | patternFailure c => exact ⟨c, rfl⟩
  | escape | unescape | frame | step | pattern => exact ⟨.ok, rfl⟩
  | fault => exact hs

/-- Every operation leaves the streaming registers at their start values (R81). -/
theorem exec_keeps_streamsAtRest {i : Instr} {s t : State} (hs : s.StreamsAtRest)
    (h : exec i s = .next t) : t.StreamsAtRest := by
  obtain ⟨hpos, hcnt, hmask⟩ := hs
  obtain ⟨f, hf, rfl⟩ := exec_effect h
  cases hf with
  | escape => exact ⟨hpos, rfl, rfl⟩
  | unescape => exact ⟨rfl, hcnt, hmask⟩
  | frame | classify | step | pattern | patternFailure | fault => exact ⟨hpos, hcnt, hmask⟩

/-- No operation changes the configuration bytes (R34). -/
theorem exec_keeps_configuration {i : Instr} {s t : State} (h : exec i s = .next t) :
    t.cfgMfr = s.cfgMfr ∧ t.cfgProd = s.cfgProd := by
  obtain ⟨f, hf, rfl⟩ := exec_effect h
  cases hf <;> simp

/-- Settles O44: the legal values are those of the codes `complete` writes, and nothing else writes
STATUS. -/
theorem stepKeepsStatusLegal : Obligations.StepKeepsStatusLegal := fun _ _ hs h =>
  step_keeps (P := State.StatusLegal)
    (dequeue := fun _ _ h => h)
    (load := fun _ _ _ h => h)
    (set := fun s r v h => by simpa [State.StatusLegal] using h)
    (operation := fun _ _ _ h he => exec_keeps_statusLegal h he)
    (reserved := fun _ _ => ⟨.badOp, rfl⟩)
    (read := fun _ _ h => h)
    (reset := fun _ _ => ⟨.none, rfl⟩)
    (fault := fun _ _ h => h) hs h

/-- Settles O46: a load is bounded by `P_MAX_IN`, and what each operation writes to OUT by its input. -/
theorem stepKeepsCapacity : Obligations.StepKeepsCapacity := fun _ _ hs h =>
  step_keeps (P := State.WithinCapacity)
    (dequeue := fun _ _ h => h)
    (load := fun _ bs hl h => ⟨fun n hn => by injection hn with hn; exact hn ▸ hl, h.2⟩)
    (set := fun s r v h => by simpa [State.WithinCapacity] using h)
    (operation := fun _ _ _ h he => exec_keeps_withinCapacity h he)
    (reserved := fun _ h => h)
    (read := fun _ _ h => h)
    (reset := fun _ _ => ⟨nofun, nofun⟩)
    (fault := fun _ _ h => h) hs h

/-- Settles O47: each byte-serial form ends at its start values, and only they move the streaming
registers. -/
theorem stepKeepsStreamsAtRest : Obligations.StepKeepsStreamsAtRest := fun _ _ hs h =>
  step_keeps (P := State.StreamsAtRest)
    (dequeue := fun _ _ h => h)
    (load := fun _ _ _ h => h)
    (set := fun s r v h => by simpa [State.StreamsAtRest] using h)
    (operation := fun _ _ _ h he => exec_keeps_streamsAtRest h he)
    (reserved := fun _ h => h)
    (read := fun _ _ h => h)
    (reset := fun _ _ => ⟨rfl, rfl, rfl⟩)
    (fault := fun _ _ h => h) hs h

/-- Settles O48: no update of a step writes CFG_MFR or CFG_PROD. -/
theorem stepKeepsConfiguration : Obligations.StepKeepsConfiguration := fun s _ h =>
  step_keeps (P := fun u => u.cfgMfr = s.cfgMfr ∧ u.cfgProd = s.cfgProd)
    (dequeue := fun _ _ h => h)
    (load := fun _ _ _ h => h)
    (set := fun u r v h => by simpa using h)
    (operation := fun i u t h he => by
      obtain ⟨hm, hp⟩ := exec_keeps_configuration he
      exact ⟨hm.trans h.1, hp.trans h.2⟩)
    (reserved := fun _ h => h)
    (read := fun _ _ h => h)
    (reset := fun _ h => h)
    (fault := fun _ _ h => h) ⟨rfl, rfl⟩ h

end Sys2Proof.Machine
end

section
/-! SUPPORT. The frames of the operations, and what their results depend on. -/

namespace Sys2Proof.Machine

/-- The same operand registers and configuration bytes hold the same values (R27). -/
theorem SameOperands.agree {s u : State} (h : SameOperands s u) : OperandsAgree s u := by
  obtain ⟨hin, hlen, hdev, htype, hmid, h0, h1, h2, hsb, hmfr, hprod⟩ := h
  exact ⟨by rw [hin], by rw [hlen], by rw [hdev], by rw [htype], by rw [hmid], by rw [h0],
    by rw [h1], by rw [h2], by rw [hsb], hmfr, hprod⟩

theorem SameStep.refl (s : State) : SameStep s s := ⟨rfl, rfl, rfl, rfl, rfl⟩

/-- The update of an operation leaves every operand register and the configuration (R27). -/
theorem Effect.sameOperands {s : State} {i : Instr} {f : State → State} (hf : Effect s i f)
    (u : State) : SameOperands u (f u) := by
  cases hf <;> simp [SameOperands]

/-- Settles O33: each of the updates an operation can be leaves the operands. -/
theorem operationsKeepOperands : Obligations.OperationsKeepOperands := by
  intro i s t h
  obtain ⟨f, hf, rfl⟩ := exec_effect h
  exact hf.sameOperands s

/-- An operation whose operands all hold values, or the fault of one that holds none (R99). -/
theorem exec_operandsWritten_or_fault (i : Instr) (s : State) :
    (∀ r ∈ operandsRead i, ¬ s.Unwritten r) ∨ ∃ t, exec i s = .next t ∧ FaultRecorded i s t := by
  have input : ∀ {bs}, s.InHolds bs → ¬ s.Unwritten .input := fun hb hn => hn _ hb
  cases i with
  | escape =>
    exact (execEscape_cases s).imp_left fun ⟨bs, hb, _⟩ => by simpa [operandsRead] using input hb
  | unescape =>
    exact (execUnescape_cases s).imp_left fun ⟨bs, hb, _⟩ => by simpa [operandsRead] using input hb
  | frame =>
    refine (execFrame_cases s).imp_left fun ⟨dev, mtype, mid, bs, hd, ht, hi, hb, _⟩ => ?_
    simpa [operandsRead, State.Unwritten, hd, ht, hi] using input hb
  | requestFrame =>
    refine (execRequestFrame_cases s).imp_left
      fun ⟨dev, v0, v1, v2, mtype, mid, bs, hd, h0, h1, h2, ht, hi, hb, _⟩ => ?_
    simpa [operandsRead, State.Unwritten, hd, h0, h1, h2, ht, hi] using input hb
  | classify =>
    exact (execClassify_cases s).imp_left fun ⟨bs, hb, _⟩ => by simpa [operandsRead] using input hb
  | stepDecode =>
    exact (execStepDecode_cases s).imp_left
      fun ⟨b, hb, _⟩ => by simp [operandsRead, State.Unwritten, hb]
  | patternDecode =>
    exact (execPatternDecode_cases s).imp_left
      fun ⟨bs, hb, _⟩ => by simpa [operandsRead] using input hb

/-- The update of an operation records no fault, or is the fault of an operand that holds no value. -/
theorem Effect.faults {s : State} {i : Instr} {f : State → State} (hf : Effect s i f) :
    (∀ u, (f u).faults = u.faults) ∨
      ∃ r ∈ operandsRead i, s.Unwritten r ∧ f = fun u => u.recordFault (.unwrittenOperand r) := by
  cases hf with
  | fault hr hu => exact .inr ⟨_, hr, hu, rfl⟩
  | escape | unescape | frame | classify | step | pattern | patternFailure =>
    exact .inl fun _ => by simp

/-- Settles O27: what an operation reads decides between completing and recording a fault. -/
theorem unwrittenOperandsFault : Obligations.UnwrittenOperandsFault := by
  refine ⟨fun i s ⟨r, hr, hu⟩ => ?_, fun i s t h hne => ?_, fun i s f hf => ?_⟩
  · exact (exec_operandsWritten_or_fault i s).resolve_left fun hw => hw r hr hu
  · obtain ⟨f, hf, rfl⟩ := exec_effect h
    rcases hf.faults with hk | ⟨r, hr, hu, rfl⟩
    · exact absurd (hk s) hne
    · exact ⟨r, hr, hu, rfl⟩
  · obtain ⟨t, ht, -⟩ := exec_cases i s
    cases hf.symm.trans ht

/-- Settles O14: the operands of the two states are the same, and no effect reads a streaming register
but to move it. -/
theorem streamRegistersAreInvisible : Obligations.StreamRegistersAreInvisible := by
  intro i s u e t h
  have hop : OperandsAgree s { s with unesc := u, esc := e } :=
    ⟨rfl, rfl, rfl, rfl, rfl, rfl, rfl, rfl, rfl, rfl, rfl⟩
  obtain ⟨f, hf, hs, hu⟩ := exec_sameEffect i hop
  rw [h] at hs
  injection hs with hs
  subst hs
  refine ⟨_, hu, ?_⟩
  cases hf <;> rfl

/-- Settles O36: the effect is the same on both states, and what each effect writes is its own data. -/
theorem resultsDependOnOperandsOnly : Obligations.ResultsDependOnOperandsOnly := by
  intro i s u t hop h hfaults
  obtain ⟨f, hf, hs, hu⟩ := exec_sameEffect i hop.agree
  rw [h] at hs
  injection hs with hs
  subst hs
  refine ⟨f u, hu, ?_⟩
  cases hf with
  | escape | unescape =>
    exact ⟨rfl, rfl, fun _ => ⟨rfl, rfl⟩, nofun, nofun, nofun⟩
  | frame hi =>
    refine ⟨rfl, rfl, fun _ => ⟨rfl, rfl⟩, ?_, ?_, ?_⟩ <;> rintro rfl <;> simp at hi
  | classify => exact ⟨rfl, rfl, by simp, fun _ => ⟨rfl, rfl⟩, nofun, nofun⟩
  | step => exact ⟨rfl, rfl, by simp, nofun, fun _ => ⟨rfl, rfl, rfl, rfl, rfl⟩, nofun⟩
  | pattern | patternFailure => exact ⟨rfl, rfl, by simp, nofun, nofun, fun _ => ⟨rfl, rfl⟩⟩
  | fault => exact absurd hfaults (s.recordFault_faults_ne _)

/-- An update that adds to the record of faults is one recorded fault and nothing else (R99, R102). -/
theorem Effect.eq_recordFault {s : State} {i : Instr} {f : State → State} (hf : Effect s i f)
    {u : State} (hne : (f u).faults ≠ u.faults) : ∃ e, f u = u.recordFault e := by
  rcases hf.faults with hk | ⟨r, -, -, rfl⟩
  · exact absurd (hk u) hne
  · exact ⟨_, rfl⟩

/-! Which registers an effect leaves: each is written by its own unit's operation alone (R31, R37). -/

theorem Effect.sameHost {s : State} {i : Instr} {f : State → State} (hf : Effect s i f) (u : State) :
    SameHost u (f u) := by
  cases hf <;> simp [SameHost]

theorem Effect.sameClass {s : State} {i : Instr} {f : State → State} (hf : Effect s i f)
    (hi : i ≠ .classify) (u : State) : SameClass u (f u) := by
  cases hf
  case classify => exact absurd rfl hi
  all_goals simp [SameClass]

theorem Effect.sameStep {s : State} {i : Instr} {f : State → State} (hf : Effect s i f)
    (hi : i ≠ .stepDecode) (u : State) : SameStep u (f u) := by
  cases hf
  case step => exact absurd rfl hi
  all_goals simp [SameStep]

theorem Effect.samePattern {s : State} {i : Instr} {f : State → State} (hf : Effect s i f)
    (hi : i ≠ .patternDecode) (u : State) : SamePattern u (f u) := by
  cases hf
  case pattern | patternFailure => exact absurd rfl hi
  all_goals simp [SamePattern]

theorem Effect.unesc_eq {s : State} {i : Instr} {f : State → State} (hf : Effect s i f)
    (hi : i ≠ .unescape) (u : State) : (f u).unesc = u.unesc := by
  cases hf
  case unescape => exact absurd rfl hi
  all_goals simp

theorem Effect.esc_eq {s : State} {i : Instr} {f : State → State} (hf : Effect s i f)
    (hi : i ≠ .escape) (u : State) : (f u).esc = u.esc := by
  cases hf
  case escape => exact absurd rfl hi
  all_goals simp

theorem Effect.sameOut {s : State} {i : Instr} {f : State → State} (hf : Effect s i f)
    (hi : i ∈ [Instr.classify, .stepDecode, .patternDecode]) (u : State) : SameOut u (f u) := by
  cases hf
  case escape | unescape => simp at hi
  case frame hframe => rcases hframe with rfl | rfl <;> simp at hi
  all_goals simp [SameOut]

/-- An output operation that records no fault leaves OUT holding a sequence, and STATUS OK (R31, R39). -/
theorem Effect.writes_output {s : State} {i : Instr} {f : State → State} (hf : Effect s i f)
    (hi : i ∈ [Instr.escape, .unescape, .frame, .requestFrame]) {u : State}
    (hk : (f u).faults = u.faults) : (∃ out, (f u).OutHolds out) ∧ (f u).status = 0x01#8 := by
  cases hf with
  | escape | unescape | frame => exact ⟨⟨_, u.putOutput_outHolds _⟩, rfl⟩
  | classify | step | pattern | patternFailure => simp at hi
  | fault => exact absurd hk (u.recordFault_faults_ne _)

/-- Settles O34: only its own unit writes a result register, and a recorded fault writes none. -/
theorem outputOperationsFrame : Obligations.OutputOperationsFrame := by
  intro i s t hi h
  obtain ⟨f, hf, rfl⟩ := exec_effect h
  have hop := hf.sameOperands s
  have hunit : i ≠ .classify ∧ i ≠ .stepDecode ∧ i ≠ .patternDecode := by
    refine ⟨?_, ?_, ?_⟩ <;> rintro rfl <;> simp at hi
  obtain ⟨hclass, hstep, hpattern⟩ := hunit
  refine ⟨hop, hf.sameHost s, hf.sameClass hclass s, hf.sameStep hstep s, hf.samePattern hpattern s,
    memReadIn_congr hop.agree.inBuf hop.agree.inLen, hf.writes_output hi, fun hne => ?_,
    fun hu => hf.unesc_eq hu s, fun he => hf.esc_eq he s⟩
  obtain ⟨e, he⟩ := hf.eq_recordFault hne
  rw [he]
  exact ⟨rfl, ⟨rfl, rfl⟩, ⟨rfl, rfl⟩⟩

/-- Settles O35: only its own unit writes a result register, and a recorded fault writes none. -/
theorem registerOperationsFrame : Obligations.RegisterOperationsFrame := by
  intro i s t hi h
  obtain ⟨f, hf, rfl⟩ := exec_effect h
  have hop := hf.sameOperands s
  have ⟨_, hinLen, _⟩ := hop
  obtain ⟨hbuf, hlen⟩ := hf.sameOut hi s
  have hstreams : SameStreams s (f s) :=
    ⟨hf.unesc_eq (by rintro rfl; simp at hi) s, hf.esc_eq (by rintro rfl; simp at hi) s⟩
  have hmemory : SameMemory s (f s) :=
    ⟨memReadIn_congr hop.agree.inBuf hop.agree.inLen,
      memReadOut_congr (by rw [hbuf]) (by rw [hlen]), hinLen, hlen⟩
  refine ⟨hop, hf.sameHost s, ⟨hbuf, hlen⟩, hstreams, hmemory, fun hc => hf.sameClass hc s,
    fun hs => hf.sameStep hs s, fun hp => hf.samePattern hp s, fun hne => ?_⟩
  obtain ⟨e, he⟩ := hf.eq_recordFault hne
  rw [he]
  exact ⟨rfl, ⟨rfl, rfl⟩, SameStep.refl s, ⟨rfl, rfl⟩⟩

end Sys2Proof.Machine
end

section
/-! SUPPORT. SET, and that no step depends on the bits of a register that holds no value. -/

namespace Sys2Proof.Machine

/-- `SET` of a value the register is wide enough for writes it (R26). -/
theorem setOperand_of_fits {r : SetReg} {v : Nat} (h : v < 2 ^ r.width) (s : State) :
    setOperand r v s = .next (s.putOperand r v) := if_pos h

/-- `SET` of a wider value is refused (R115). -/
theorem setOperand_of_wide {r : SetReg} {v : Nat} (h : 2 ^ r.width ≤ v) (s : State) :
    setOperand r v s = .refused (.operandTooWide r v) := if_neg (Nat.not_lt.2 h)

/-- No operand register is wider than a byte (R25). -/
theorem SetReg.two_pow_width_le (r : SetReg) : 2 ^ r.width ≤ 256 := by
  cases r <;> decide

/-- Settles O39: DEV is 4 bits wide and the other operand registers 8. -/
theorem setWritesOneOperand : Obligations.SetWritesOneOperand := by
  intro s r v rest hp
  rw [step_of_pending hp]
  refine ⟨?_, ?_, fun hv => setOperand_of_wide (r.two_pow_width_le.trans hv) _,
    fun hv => ⟨?_, ?_, ?_, ?_, ?_, ?_⟩⟩
  · rintro hv rfl
    exact setOperand_of_fits hv _
  · rintro hv rfl
    exact setOperand_of_wide hv _
  all_goals
    rintro rfl
    exact setOperand_of_fits hv _

/-- An outcome `y` matches `x`: next states that differ in nothing but the bits of registers that hold no
value, or the same refusal. -/
def SameOutcome (x y : Result) : Prop :=
  (∀ t, x = .next t → ∃ v, y = .next v ∧ SameValues t v) ∧ ∀ q, x = .refused q → y = .refused q

theorem SameOutcome.next {t v : State} (h : SameValues t v) : SameOutcome (.next t) (.next v) :=
  ⟨fun _ ht => ⟨v, rfl, by injection ht with ht; exact ht ▸ h⟩, fun _ hq => by cases hq⟩

theorem SameOutcome.refused (q : Refusal) : SameOutcome (.refused q) (.refused q) :=
  ⟨fun _ ht => (by cases ht), fun _ hq => hq⟩

theorem SameValues.agree {s u : State} (h : SameValues s u) : OperandsAgree s u := by
  obtain ⟨hin, hlen, hdev, htype, hmid, h0, h1, h2, hsb, -, -, -, -, -, -, -, -, -, -, -, -, hmfr,
    hprod, -⟩ := h
  exact ⟨hin, hlen, hdev, htype, hmid, h0, h1, h2, hsb, hmfr, hprod⟩

/-! Each named update of the state makes such states such states again. -/

section
variable {s u : State} (h : SameValues s u)
include h

theorem SameValues.dequeue (rest : List HostAction) :
    SameValues (s.dequeue rest) (u.dequeue rest) := by
  simp_all [SameValues]

theorem SameValues.putInput (bs : List Byte) : SameValues (s.putInput bs) (u.putInput bs) := by
  simp_all [SameValues]

theorem SameValues.putOperand (r : SetReg) (v : Nat) :
    SameValues (s.putOperand r v) (u.putOperand r v) := by
  cases r <;> simp_all [SameValues]

theorem SameValues.putOutput (bs : List Byte) : SameValues (s.putOutput bs) (u.putOutput bs) := by
  simp_all [SameValues]

theorem SameValues.putUnesc (x : UnescapeUnit) : SameValues (s.putUnesc x) (u.putUnesc x) := by
  simp_all [SameValues]

theorem SameValues.putEsc (x : EscapeUnit) : SameValues (s.putEsc x) (u.putEsc x) := by
  simp_all [SameValues]

theorem SameValues.putClass (ti : Byte × Byte) : SameValues (s.putClass ti) (u.putClass ti) := by
  simp_all [SameValues]

theorem SameValues.putStep (d : StepData) : SameValues (s.putStep d) (u.putStep d) := by
  simp_all [SameValues]

theorem SameValues.putPattern (g : StepGrid) (v : Scalars) :
    SameValues (s.putPattern g v) (u.putPattern g v) := by
  simp_all [SameValues]

theorem SameValues.clearPattern : SameValues s.clearPattern u.clearPattern := by
  simp_all [SameValues]

theorem SameValues.complete (c : StatusCode) : SameValues (s.complete c) (u.complete c) := by
  simp_all [SameValues]

theorem SameValues.record (x : HostValue) : SameValues (s.record x) (u.record x) := by
  simp_all [SameValues]

theorem SameValues.recordFault (f : Fault) : SameValues (s.recordFault f) (u.recordFault f) := by
  simp_all [SameValues]

theorem SameValues.hostReset : SameValues s.hostReset u.hostReset := by
  simp_all [SameValues]

end

theorem SameValues.streams {s u : State} (h : SameValues s u) :
    u.unesc = s.unesc ∧ u.esc = s.esc := by
  simp_all [SameValues]

theorem SameValues.pending_eq {s u : State} (h : SameValues s u) : u.pending = s.pending := by
  simp_all [SameValues]

/-- A host read of a register depends on the value it holds alone (R21). -/
theorem held_congr {α : Type} {v w : Register α} (h : w.value = v.value) (r : ResultReg)
    (k : α → HostValue) : held r w k = held r v k := by
  rw [held, held, h]

/-- The host reads OUT, or the fault of reading it, alike. -/
theorem SameValues.outputBytes_eq {s u : State} (h : SameValues s u) :
    u.outputBytes = s.outputBytes := by
  obtain ⟨-, -, -, -, -, -, -, -, -, hout, hlen, -⟩ := h
  exact outputBytes_congr hout hlen

/-- Every result register reads alike, or gives the same fault (R114). -/
theorem SameValues.readResult_eq {s u : State} (h : SameValues s u) (r : ResultReg) :
    readResult r u = readResult r s := by
  have hread := h.outputBytes_eq
  obtain ⟨-, -, -, -, -, -, -, -, -, -, hlen, htype, hid, hon, hprob, hflam, hrep, hrcnt, hgrid,
    hscalar, hstatus, -⟩ := h
  cases r with
  | status => rw [readResult, readResult, hstatus]
  | out => rw [readResult, readResult, hread]
  | outLen => exact held_congr hlen _ _
  | rtype => exact held_congr htype _ _
  | rid => exact held_congr hid _ _
  | stOn => exact held_congr hon _ _
  | stProb => exact held_congr hprob _ _
  | stFlam => exact held_congr hflam _ _
  | stRep => exact held_congr hrep _ _
  | stRcnt => exact held_congr hrcnt _ _
  | patStep => exact held_congr hgrid _ _
  | patScalar => exact held_congr hscalar _ _

/-- Every view the host may read reads alike, or gives the same fault (R95, R96, R114). -/
theorem SameValues.readView_eq {s u : State} (h : SameValues s u) (v : ReadView) :
    readView v u = readView v s := by
  have hres := h.readResult_eq
  obtain ⟨-, -, -, -, -, -, -, -, -, -, -, -, -, -, -, -, -, -, -, hscalar, -⟩ := h
  cases v with
  | reg r => exact hres r
  | truth => exact held_congr hscalar _ _
  | filterEntry => exact held_congr hscalar _ _

/-- The effect of an operation depends on no bits of a register that holds no value. -/
theorem Effect.sameValues {s : State} {i : Instr} {f : State → State} (hf : Effect s i f)
    {t u : State} (h : SameValues t u) : SameValues (f t) (f u) := by
  obtain ⟨hunesc, hesc⟩ := h.streams
  cases hf with
  | escape =>
    simp only [State.afterEscape_eq, hesc]
    exact ((h.putOutput _).putEsc _).complete _
  | unescape =>
    simp only [State.afterUnescape_eq, hunesc]
    exact ((h.putOutput _).putUnesc _).complete _
  | frame => exact (h.putOutput _).complete _
  | classify => exact (h.putClass _).complete _
  | step => exact (h.putStep _).complete _
  | pattern => exact (h.putPattern _ _).complete _
  | patternFailure => exact h.clearPattern.complete _
  | fault => exact h.recordFault _

theorem SameValues.exec_outcome {s u : State} (h : SameValues s u) (i : Instr) :
    SameOutcome (exec i s) (exec i u) := by
  obtain ⟨f, hf, hs, hu⟩ := exec_sameEffect i h.agree
  rw [hs, hu]
  exact .next (hf.sameValues h)

/-- What goes on from a reading that is the same in both states has the same outcome. -/
theorem SameValues.goOn_outcome {α : Type} {s u : State} (h : SameValues s u) {x y : Except Fault α}
    (hxy : y = x) {k l : α → Result} (hk : ∀ a, SameOutcome (k a) (l a)) :
    SameOutcome (goOn s x k) (goOn u y l) := by
  subst hxy
  cases y with
  | error f => exact .next (h.recordFault f)
  | ok a => exact hk a

theorem SameValues.loadInput_outcome {s u : State} (h : SameValues s u) (bs : List Byte) :
    SameOutcome (loadInput bs s) (loadInput bs u) := by
  unfold loadInput
  split
  · exact .next (h.putInput bs)
  · exact .refused _

theorem SameValues.setOperand_outcome {s u : State} (h : SameValues s u) (r : SetReg) (v : Nat) :
    SameOutcome (setOperand r v s) (setOperand r v u) := by
  unfold setOperand
  split
  · exact .next (h.putOperand r v)
  · exact .refused _

theorem SameValues.runCommand_outcome {s u : State} (h : SameValues s u) (c : Byte) :
    SameOutcome (runCommand c s) (runCommand c u) := by
  unfold runCommand
  split
  · exact h.exec_outcome _
  · exact .next (h.complete .badOp)

theorem SameValues.performAction_outcome {s u : State} (h : SameValues s u) (a : HostAction) :
    SameOutcome (performAction a s) (performAction a u) := by
  cases a with
  | load bs => exact h.loadInput_outcome bs
  | move => exact h.goOn_outcome h.outputBytes_eq fun bs => h.loadInput_outcome bs
  | loadSlice a b =>
    exact h.goOn_outcome h.outputBytes_eq fun bs => h.loadInput_outcome (slice bs a b)
  | set r v => exact h.setOperand_outcome r v
  | command c => exact h.runCommand_outcome c
  | read v => exact h.goOn_outcome (h.readView_eq v) fun x => .next (h.record x)
  | reset => exact .next h.hostReset

/-- A step takes states that differ in nothing but bits without value to such states again (R21). -/
theorem SameValues.step_outcome {s u : State} (h : SameValues s u) :
    SameOutcome (step s) (step u) := by
  cases hp : s.pending with
  | nil =>
    rw [step_of_idle hp, step_of_idle (h.pending_eq.trans hp)]
    exact .next h
  | cons a rest =>
    rw [step_of_pending hp, step_of_pending (h.pending_eq.trans hp)]
    exact (h.dequeue rest).performAction_outcome a

/-- Settles O29: every host action reads registers through their values alone. -/
theorem bitsWithoutValueAreInvisible : Obligations.BitsWithoutValueAreInvisible :=
  fun _ _ h => h.step_outcome

end Sys2Proof.Machine
end

section
/-! SUPPORT. The memory: what a host action does to the host's lists and to the record of faults, that
the buffers keep their form, and that reads and repeated operations change nothing
(spec/20_memory.md). -/

namespace Sys2Proof.Machine

/-- Every operation leaves IN alone, and OUT as it was or holding a sequence stored whole (R39). -/
theorem exec_keeps_buffersAgree {i : Instr} {s t : State} (hs : s.BuffersAgree)
    (h : exec i s = .next t) : t.BuffersAgree := by
  obtain ⟨hin, hout⟩ := hs
  obtain ⟨f, hf, rfl⟩ := exec_effect h
  cases hf with
  | escape | unescape | frame => exact ⟨hin, bufferAgrees_ofBytes _⟩
  | classify | step | pattern | patternFailure | fault => exact ⟨hin, hout⟩

/-- Settles O45: a load and an output store a whole sequence with its length, a reset empties both
buffers, and nothing else writes a buffer or its length. -/
theorem stepKeepsBuffersInForm : Obligations.StepKeepsBuffersInForm := fun _ _ hs h =>
  step_keeps (P := State.BuffersAgree)
    (dequeue := fun _ _ h => h)
    (load := fun _ bs _ h => ⟨bufferAgrees_ofBytes bs, h.2⟩)
    (set := fun s r v h => by simpa [State.BuffersAgree] using h)
    (operation := fun _ _ _ h he => exec_keeps_buffersAgree h he)
    (reserved := fun _ h => h)
    (read := fun _ _ h => h)
    (reset := fun _ _ => ⟨trivial, trivial⟩)
    (fault := fun _ _ h => h) hs h

/-- No operation touches the host's list of actions or what the host has read. -/
theorem exec_sameHost {i : Instr} {s t : State} (h : exec i s = .next t) : SameHost s t := by
  obtain ⟨f, hf, rfl⟩ := exec_effect h
  exact hf.sameHost s

/-- Performing an action leaves the host's actions still to come, and unless it is a read also what
the host has been given (R46, R49). -/
theorem performAction_host {a : HostAction} {s t : State} (h : performAction a s = .next t) :
    t.pending = s.pending ∧ ((∀ v, a ≠ .read v) → t.returned = s.returned) := by
  cases a with
  | load =>
    obtain ⟨-, rfl⟩ := loadInput_next h
    exact ⟨rfl, fun _ => rfl⟩
  | move =>
    rcases moveOutput_next h with ⟨_, _, _, rfl⟩ | ⟨_, _, rfl⟩ <;> exact ⟨rfl, fun _ => rfl⟩
  | loadSlice =>
    rcases loadOutputSlice_next h with ⟨_, _, _, rfl⟩ | ⟨_, _, rfl⟩ <;> exact ⟨rfl, fun _ => rfl⟩
  | set =>
    obtain ⟨-, rfl⟩ := setOperand_next h
    exact ⟨by simp, fun _ => by simp⟩
  | command =>
    rcases runCommand_next h with ⟨_, _, he⟩ | ⟨_, rfl⟩
    · obtain ⟨hp, hr⟩ := exec_sameHost he
      exact ⟨hp, fun _ => hr⟩
    · exact ⟨rfl, fun _ => rfl⟩
  | read v =>
    rcases hostRead_next h with ⟨_, _, rfl⟩ | ⟨_, _, rfl⟩ <;>
      exact ⟨rfl, fun hv => absurd rfl (hv v)⟩
  | reset =>
    injection h with h
    subst h
    exact ⟨rfl, fun _ => rfl⟩

/-- Settles O6: the step takes the action off the list, and performing it leaves the list. -/
theorem stepTakesActionsInOrder : Obligations.StepTakesActionsInOrder := by
  intro s t a rest hp h
  rw [step_of_pending hp] at h
  exact performAction_host h

/-- A read of IN at or above IN_LEN is the fault OutOfRange (R44). -/
theorem memReadIn_beyond {s : State} {m : Memory} {n k : Nat} (hm : s.inBuf.value = some m)
    (hn : s.inLen.value = some n) (hk : n ≤ k) : s.memReadIn k = .error (.outOfRange k) := by
  simp [State.memReadIn, hm, hn, Nat.not_lt.2 hk]

/-- The record of faults is kept, or one UnwrittenOperand is appended to it (R102). -/
def KeepsFaultRecord (s t : State) : Prop :=
  t.faults = s.faults ∨ ∃ r, t.faults = s.faults ++ [.unwrittenOperand r]

/-- An OutOfRange in a record so kept was there before. -/
theorem KeepsFaultRecord.outOfRange_mem {s t : State} (h : KeepsFaultRecord s t) {k : Nat}
    (hk : .outOfRange k ∈ t.faults) : .outOfRange k ∈ s.faults := by
  rcases h with h | ⟨r, h⟩ <;> simpa [h] using hk

/-- An operation records at most the fault of an operand it reads (R99). -/
theorem exec_keepsFaultRecord {i : Instr} {s t : State} (h : exec i s = .next t) :
    KeepsFaultRecord s t := by
  obtain ⟨f, hf, rfl⟩ := exec_effect h
  rcases hf.faults with hk | ⟨r, -, -, rfl⟩
  · exact .inl (hk s)
  · exact .inr ⟨r, rfl⟩

/-- A host read of OUT that faults names a result register. -/
theorem outputBytes_error_result {s : State} {f : Fault} (h : s.outputBytes = .error f) :
    ∃ r, f = .unwrittenOperand (.result r) := by
  rcases s.outputBytes_error f h with rfl | rfl
  · exact ⟨.out, rfl⟩
  · exact ⟨.outLen, rfl⟩

theorem held_error {α : Type} {r : ResultReg} {v : Register α} {k : α → HostValue} {f : Fault}
    (h : held r v k = .error f) : f = .unwrittenOperand (.result r) := by
  unfold held at h
  cases hv : v.value with
  | none => rw [hv] at h; injection h with h; exact h.symm
  | some a => rw [hv] at h; cases h

/-- A host read of a result register that faults names a result register (R21, R102). -/
theorem readResult_error {r : ResultReg} {s : State} {f : Fault} (h : readResult r s = .error f) :
    ∃ r', f = .unwrittenOperand (.result r') := by
  cases r with
  | status => cases h
  | out =>
    rw [readResult] at h
    cases hb : s.outputBytes with
    | ok bs => rw [hb] at h; cases h
    | error g => rw [hb] at h; injection h with h; exact h ▸ outputBytes_error_result hb
  | outLen | rtype | rid | stOn | stProb | stFlam | stRep | stRcnt | patStep | patScalar =>
    exact ⟨_, held_error h⟩

/-- A host read that faults names a result register (R21, R102). -/
theorem readView_error {v : ReadView} {s : State} {f : Fault} (h : readView v s = .error f) :
    ∃ r, f = .unwrittenOperand (.result r) := by
  cases v with
  | reg => exact readResult_error h
  | truth | filterEntry => exact ⟨_, held_error h⟩

theorem KeepsFaultRecord.recordFault {s : State} {f : Fault}
    (hf : ∃ r, f = .unwrittenOperand (.result r)) : KeepsFaultRecord s (s.recordFault f) := by
  obtain ⟨r, rfl⟩ := hf
  exact .inr ⟨.result r, rfl⟩

/-- No host action records a fault but UnwrittenOperand, and none clears the record (R102). -/
theorem performAction_keepsFaultRecord {a : HostAction} {s t : State}
    (h : performAction a s = .next t) : KeepsFaultRecord s t := by
  cases a with
  | load =>
    obtain ⟨-, rfl⟩ := loadInput_next h
    exact .inl rfl
  | move =>
    rcases moveOutput_next h with ⟨_, _, _, rfl⟩ | ⟨_, hf, rfl⟩
    · exact .inl rfl
    · exact .recordFault (outputBytes_error_result hf)
  | loadSlice =>
    rcases loadOutputSlice_next h with ⟨_, _, _, rfl⟩ | ⟨_, hf, rfl⟩
    · exact .inl rfl
    · exact .recordFault (outputBytes_error_result hf)
  | set =>
    obtain ⟨-, rfl⟩ := setOperand_next h
    exact .inl (by simp)
  | command =>
    rcases runCommand_next h with ⟨_, _, he⟩ | ⟨_, rfl⟩
    · exact exec_keepsFaultRecord he
    · exact .inl rfl
  | read =>
    rcases hostRead_next h with ⟨_, _, rfl⟩ | ⟨_, hf, rfl⟩
    · exact .inl rfl
    · exact .recordFault (readView_error hf)
  | reset =>
    injection h with h
    subst h
    exact .inl rfl

/-- A step keeps the record of faults, or appends one UnwrittenOperand to it (R102). -/
theorem step_keepsFaultRecord {s t : State} (h : step s = .next t) : KeepsFaultRecord s t := by
  cases hp : s.pending with
  | nil =>
    rw [step_of_idle hp] at h
    injection h with h
    exact .inl (by rw [h])
  | cons a rest =>
    rw [step_of_pending hp] at h
    exact performAction_keepsFaultRecord (s := s.dequeue rest) h

/-- Settles O30: whatever is newly recorded is an UnwrittenOperand. -/
theorem noReadBeyondInput : Obligations.NoReadBeyondInput :=
  ⟨fun _ _ _ _ => memReadIn_beyond,
    fun _ _ _ _ h => (exec_keepsFaultRecord h).outOfRange_mem,
    fun _ _ _ h => (step_keepsFaultRecord h).outOfRange_mem⟩

/-- An effect that records no fault, taken twice, is the effect taken once but for the streaming
registers (R46): what it writes is its own data. -/
theorem Effect.idempotent {s : State} {i : Instr} {f : State → State} (hf : Effect s i f)
    {u : State} (hk : (f u).faults = u.faults) :
    { f (f u) with unesc := (f u).unesc, esc := (f u).esc } = f u := by
  cases hf with
  | fault => exact absurd hk (u.recordFault_faults_ne _)
  | frame | classify | step | pattern | patternFailure => rfl
  -- Not `rfl`: it would run the byte-serial form on the register the first operation left.
  | escape | unescape => simp [State.complete, State.putOutput, State.putEsc, State.putUnesc]

/-- Settles O37: a read records its value or its fault alone, and an operation issued again finds the
operands it read before, so it has the same effect. -/
theorem readsAndRepeatsChangeNothing : Obligations.ReadsAndRepeatsChangeNothing := by
  refine ⟨fun s t v rest hp h => ?_, fun i s t h hk => ?_⟩
  · rw [step_of_pending hp] at h
    rcases hostRead_next h with ⟨x, -, rfl⟩ | ⟨f, hf, rfl⟩
    · exact .inl ⟨x, rfl⟩
    · obtain ⟨r, rfl⟩ := readView_error hf
      exact .inr ⟨r, rfl⟩
  · obtain ⟨f, hf, hs, ht⟩ := exec_sameEffect i (operationsKeepOperands i s t h).agree
    rw [h] at hs
    injection hs with hs
    subst hs
    exact ⟨_, ht, hf.idempotent hk⟩

/-- A write of CMD whose code selects an operation runs it (R28, R55). -/
theorem runCommand_of_decode {c : Byte} {i : Instr} (h : decode c = .ok i) (s : State) :
    runCommand c s = exec i s := by
  rw [runCommand, h]

/-- A word selects an operation exactly if its low byte decodes to it (R54). -/
theorem decodeTableWord_eq_some_iff (w : Nat) (i : Instr) :
    decodeTableWord 8 w = some i ↔ decode (BitVec.ofNat 8 (w % 2 ^ 8)) = .ok i := by
  unfold decodeTableWord
  cases decode (BitVec.ofNat 8 (w % 2 ^ 8)) <;> simp

/-- Settles O3: the step performs the write of CMD at the head of the list. -/
theorem stepRunsCommand : Obligations.StepRunsCommand := by
  refine ⟨fun s c rest i hp hc => ?_, fun s w i hw => ?_⟩
  · rw [step_of_pending hp]
    exact runCommand_of_decode hc _
  · rw [step_of_pending (s.withFetchWord_pending 8 w), s.withFetchWord_dequeue]
    exact runCommand_of_decode ((decodeTableWord_eq_some_iff w i).1 hw) s

end Sys2Proof.Machine
end

section
/-! SUPPORT. The command words and the operations they select, and the bytes UNESCAPE writes, each by its
index (spec/30_encoding.md R54 to R59). -/

namespace Sys2Proof

/-- A function of unit 0x0 that selects an operation is that operation's (R55). -/
theorem decodeNibbleCodec_ok {func : BitVec 4} {i : Instr} (h : decodeNibbleCodec func = .ok i) :
    i.unit = 0x0#4 ∧ i.func = func := by
  unfold decodeNibbleCodec at h
  split_ifs at h <;> cases h <;> subst func <;> exact ⟨rfl, rfl⟩

/-- A function of unit 0x1 that selects an operation is that operation's (R55). -/
theorem decodeSysexFramer_ok {func : BitVec 4} {i : Instr} (h : decodeSysexFramer func = .ok i) :
    i.unit = 0x1#4 ∧ i.func = func := by
  unfold decodeSysexFramer at h
  split_ifs at h <;> cases h <;> subst func <;> exact ⟨rfl, rfl⟩

/-- A function of unit 0x2 that selects an operation is that operation's (R55). -/
theorem decodePatternDecoder_ok {func : BitVec 4} {i : Instr}
    (h : decodePatternDecoder func = .ok i) : i.unit = 0x2#4 ∧ i.func = func := by
  unfold decodePatternDecoder at h
  split_ifs at h <;> cases h <;> subst func <;> exact ⟨rfl, rfl⟩

/-- A word that selects an operation has that operation's unit and function (R54, R55). -/
theorem decode_ok {c : Byte} {i : Instr} (h : decode c = .ok i) :
    i.unit = cmdUnit c ∧ i.func = cmdFunc c := by
  dsimp only [decode] at h
  split_ifs at h with h0 h1 h2
  · exact h0 ▸ decodeNibbleCodec_ok h
  · exact h1 ▸ decodeSysexFramer_ok h
  · exact h2 ▸ decodePatternDecoder_ok h

/-- A command word is its unit above its function (R54). -/
theorem cmdUnit_append_cmdFunc (c : Byte) : cmdUnit c ++ cmdFunc c = c := by
  rw [cmdUnit, cmdFunc, BitVec.extractLsb'_append_extractLsb'_eq_extractLsb' (by rfl)]
  exact BitVec.extractLsb'_eq_self

/-- The command word of every operation decodes to it (R55). -/
theorem decode_encode (i : Instr) : decode (encode i) = .ok i := by
  cases i with
  | escape => exact Laws.RoundTrip.escape
  | unescape => exact Laws.RoundTrip.unescape
  | frame => exact Laws.RoundTrip.frame
  | requestFrame => exact Laws.RoundTrip.requestFrame
  | classify => exact Laws.RoundTrip.classify
  | stepDecode => exact Laws.RoundTrip.stepDecode
  | patternDecode => exact Laws.RoundTrip.patternDecode

/-- Settles O2: decoding a word finds the unit and the function the encoder puts together again. -/
theorem decodeAndEncodeAgree : Obligations.DecodeAndEncodeAgree := by
  refine fun c i => ⟨fun h => ?_, fun h => h ▸ decode_encode i⟩
  obtain ⟨hunit, hfunc⟩ := decode_ok h
  rw [encode, hunit, hfunc, cmdUnit_append_cmdFunc]

/-- The words of the operation map, as numbers (R55). -/
def commandWords : List Nat :=
  [Instr.escape, .unescape, .frame, .requestFrame, .classify, .stepDecode, .patternDecode].map
    fun i => (encode i).toNat

theorem encode_toNat_mem_commandWords (i : Instr) : (encode i).toNat ∈ commandWords :=
  List.mem_map_of_mem (by cases i <;> decide)

theorem lt_of_mem_commandWords {w : Nat} (h : w ∈ commandWords) : w < 256 := by
  obtain ⟨i, -, rfl⟩ := List.mem_map.1 h
  exact (encode i).isLt

/-- The numbers that select an operation are those of the operation map (R55). -/
theorem decodeTableWord_isSome_iff {w : Nat} (hw : w < 256) :
    (decodeTableWord 8 w).isSome ↔ w ∈ commandWords := by
  rw [Option.isSome_iff_exists]
  simp only [Machine.decodeTableWord_eq_some_iff, Nat.mod_eq_of_lt (b := 2 ^ 8) hw]
  constructor
  · rintro ⟨i, h⟩
    have hword := congrArg BitVec.toNat ((decodeAndEncodeAgree _ i).1 h)
    rw [BitVec.toNat_ofNat, Nat.mod_eq_of_lt hw] at hword
    exact hword ▸ encode_toNat_mem_commandWords i
  · intro h
    obtain ⟨i, -, rfl⟩ := List.mem_map.1 h
    rw [BitVec.ofNat_toNat, BitVec.setWidth_eq]
    exact ⟨i, decode_encode i⟩

/-- As many of the 256 numbers select an operation as the operation map has words (R55). -/
theorem length_filter_decodeTableWord_isSome :
    ((List.range 256).filter fun w => (decodeTableWord 8 w).isSome).length = 7 := by
  have hperm : ((List.range 256).filter fun w => (decodeTableWord 8 w).isSome).Perm
      commandWords := by
    refine (List.perm_ext_iff_of_nodup (List.nodup_range.filter _) (by decide)).2 fun w => ?_
    rw [List.mem_filter, List.mem_range]
    constructor
    · rintro ⟨hw, hsome⟩
      exact (decodeTableWord_isSome_iff hw).1 hsome
    · intro h
      have hw := lt_of_mem_commandWords h
      exact ⟨hw, (decodeTableWord_isSome_iff hw).2 h⟩
  exact hperm.length_eq

/-- Settles O1: each of the seven words is its operation's encoding, and of the 256 words they are the
only ones that select an operation. -/
theorem commandWordsDecode : Obligations.CommandWordsDecode := by
  refine ⟨decode_encode .escape, decode_encode .unescape, decode_encode .frame,
    decode_encode .requestFrame, decode_encode .classify, decode_encode .stepDecode,
    decode_encode .patternDecode, ?_⟩
  have hsplit := List.length_eq_length_filter_add (l := List.range 256)
    fun w => (decodeTableWord 8 w).isSome
  rw [length_filter_decodeTableWord_isSome, List.length_range] at hsplit
  simp only [Option.not_isSome] at hsplit
  omega

namespace Machine

/-- ORing mask bit `i` into bit 7 of a byte (R72). -/
theorem or_maskBit_eq (mask p : Byte) (i : Nat) :
    p ||| (((mask >>> i) &&& 1#8) <<< 7) = if mask.getLsbD i then p ||| 0x80#8 else p := by
  rw [BitVec.and_one_eq_setWidth_ofBool_getLsbD, BitVec.getLsbD_ushiftRight, Nat.add_zero]
  cases mask.getLsbD i <;> simp

/-- Byte `i` that a chunk decodes to: there is one where the payload byte is, and it reads that byte and
mask bit `i` alone (R59, R72). -/
theorem unescapeChunk_getElem?_eq_bind (chunk : List Byte) (i : Nat) :
    (unescapeChunk chunk)[i]? = chunk[0]?.bind fun mask =>
      chunk[1 + i]?.map fun p => if mask.getLsbD i then p ||| 0x80#8 else p := by
  cases chunk with
  | nil => rfl
  | cons mask payload => simp [unescapeChunk_getElem?, or_maskBit_eq, Nat.add_comm 1 i]

theorem unescapeChunk_length (chunk : List Byte) :
    (unescapeChunk chunk).length = chunk.length - 1 := by
  cases chunk with
  | nil => rfl
  | cons mask payload => exact unescapeChunk_cons_length mask payload

/-- Byte `i` of what UNESCAPE writes for chunk `c`, read off the input (R59, R72). -/
theorem unescape_getElem? (bs : List Byte) (c i : Nat) (hi : i < 7) :
    (unescape bs)[7 * c + i]? = bs[8 * c]?.bind fun mask =>
      bs[8 * c + 1 + i]?.map fun p => if mask.getLsbD i then p ||| 0x80#8 else p := by
  induction bs using group_induction 8 (by decide) generalizing c with
  | nil => simp
  | short chunk h0 h =>
    rw [unescape_short _ h0 h.le]
    cases c with
    | zero => simpa using unescapeChunk_getElem?_eq_bind chunk i
    | succ c =>
      rw [List.getElem?_eq_none (i := 8 * (c + 1)) (by omega), Option.bind_none]
      exact List.getElem?_eq_none (by rw [unescapeChunk_length]; omega)
  | full chunk rest h ih =>
    have hout : (unescapeChunk chunk).length = 7 := by rw [unescapeChunk_length, h]
    rw [unescape_append _ rest h]
    cases c with
    | zero =>
      rw [List.getElem?_append_left (by omega), List.getElem?_append_left (by omega),
        List.getElem?_append_left (by omega)]
      simpa using unescapeChunk_getElem?_eq_bind chunk i
    | succ c =>
      rw [List.getElem?_append_right (by omega), List.getElem?_append_right (by omega),
        List.getElem?_append_right (by omega), hout, h,
        show 7 * (c + 1) + i - 7 = 7 * c + i by omega, show 8 * (c + 1) - 8 = 8 * c by omega,
        show 8 * (c + 1) + 1 + i - 8 = 8 * c + 1 + i by omega, ih c]

/-- UNESCAPE writes the same for two inputs that have the same payload bytes, and below each of them the same
mask bit (R59). -/
theorem unescape_congr {bs bs' : List Byte} (hlen : bs.length = bs'.length)
    (hpay : ∀ c i, i < 7 → bs[8 * c + 1 + i]? = bs'[8 * c + 1 + i]?)
    (hmask : ∀ c i mask mask', i < 7 → bs[8 * c]? = some mask → bs'[8 * c]? = some mask' →
      8 * c + 1 + i < bs.length → mask.getLsbD i = mask'.getLsbD i) :
    unescape bs = unescape bs' := by
  refine List.ext_getElem? fun n => ?_
  have hi : n % 7 < 7 := Nat.mod_lt n (by decide)
  rw [← Nat.div_add_mod n 7, unescape_getElem? bs _ _ hi, unescape_getElem? bs' _ _ hi,
    ← hpay _ _ hi]
  generalize n / 7 = c, n % 7 = i at hi ⊢
  by_cases hin : 8 * c + 1 + i < bs.length
  · have hm : bs[8 * c]? = some bs[8 * c] := List.getElem?_eq_getElem _
    have hm' : bs'[8 * c]? = some bs'[8 * c] := List.getElem?_eq_getElem _
    rw [hm, hm', Option.bind_some, Option.bind_some, hmask c i _ _ hi hm hm' hin]
  · rw [List.getElem?_eq_none (Nat.le_of_not_lt hin)]
    simp

/-- Settles O12: the two inputs have the same bytes restored, so each state's UNESCAPE writes that one OUT. -/
theorem unescapeIgnoresBitsWithoutData : Obligations.UnescapeIgnoresBitsWithoutData := by
  intro s s' bs bs' hs hs' hlen hpay hmask
  refine ⟨_, _, unescape bs, execUnescape_of_holds hs, execUnescape_of_holds hs',
    s.putOutput_outHolds _, ?_⟩
  rw [unescape_congr hlen hpay hmask]
  exact s'.putOutput_outHolds _

end Machine

end Sys2Proof
end

section
/-! SUPPORT. The round trips of ESCAPE and UNESCAPE (R75, R76), proved one group at a time: the two parts of
a byte that a chunk keeps apart, then one chunk, then the sequence. -/

namespace Sys2Proof.Machine

/-! The seven low bits of a byte and its bit 7. -/

/-- A byte is at most 0x7F exactly if its bit 7 is 0. -/
theorem le_7F_iff_getLsbD (b : Byte) : b ≤ 0x7F#8 ↔ b.getLsbD 7 = false := by
  have hmsb : b.getLsbD 7 = b.msb := (BitVec.msb_eq_getLsbD_last b).symm
  rw [hmsb, BitVec.msb_eq_false_iff_two_mul_lt, BitVec.le_def,
    show (0x7F#8).toNat = 127 from rfl]
  omega

theorem and_7F_getLsbD (b : Byte) (i : Nat) :
    (b &&& 0x7F#8).getLsbD i = (decide (i < 7) && b.getLsbD i) := by
  have hlow : (0x7F#8).getLsbD i = decide (i < 7) := by
    rw [BitVec.getLsbD_ofNat, show 0x7F = 2 ^ 7 - 1 from rfl, Nat.testBit_two_pow_sub_one,
      ← Bool.decide_and]
    exact decide_eq_decide.2 (by omega)
  rw [BitVec.getLsbD_and, hlow, Bool.and_comm]

theorem and_7F_le (b : Byte) : b &&& 0x7F#8 ≤ 0x7F#8 := by
  rw [le_7F_iff_getLsbD, and_7F_getLsbD]
  rfl

/-- A byte keeps its value without bit 7 exactly if it is at most 0x7F. -/
theorem and_7F_eq_self_iff (b : Byte) : b &&& 0x7F#8 = b ↔ b ≤ 0x7F#8 := by
  constructor
  · intro h
    rw [← h]
    exact and_7F_le b
  · intro h
    refine BitVec.eq_of_getLsbD_eq fun i hi => ?_
    rw [and_7F_getLsbD]
    rcases Nat.lt_or_ge i 7 with hlow | hhigh
    · simp [hlow]
    · obtain rfl : i = 7 := by omega
      rw [(le_7F_iff_getLsbD b).1 h, Bool.and_false]

/-- Bit 7 ORed back into the seven low bits of a byte gives the byte (R70, R72). -/
theorem restore_bit7 (b : Byte) :
    (if b.getLsbD 7 then (b &&& 0x7F#8) ||| 0x80#8 else b &&& 0x7F#8) = b := by
  cases h : b.getLsbD 7 with
  | false => simpa using (and_7F_eq_self_iff b).2 ((le_7F_iff_getLsbD b).2 h)
  | true =>
    refine BitVec.eq_of_getLsbD_eq fun i hi => ?_
    interval_cases i <;> simp [h]

/-- Whatever is ORed into bit 7 of a byte, its seven low bits stay (R72). -/
theorem ite_or_80_and_7F (c : Bool) (p : Byte) :
    (if c then p ||| 0x80#8 else p) &&& 0x7F#8 = p &&& 0x7F#8 := by
  cases c with
  | false => rfl
  | true =>
    refine BitVec.eq_of_getLsbD_eq fun i hi => ?_
    interval_cases i <;> simp

theorem ite_or_80_getLsbD_7 (c : Bool) (p : Byte) :
    (if c then p ||| 0x80#8 else p).getLsbD 7 = (c || p.getLsbD 7) := by
  cases c <;> simp

/-! One chunk. -/

/-- Byte `i` that a chunk decodes to: its payload byte `i`, with bit 7 set if mask bit `i` is (R72). -/
theorem unescapeChunk_cons_getElem? (mask : Byte) (payload : List Byte) (i : Nat) :
    (unescapeChunk (mask :: payload))[i]? =
      payload[i]?.map fun p => if mask.getLsbD i then p ||| 0x80#8 else p := by
  simp only [unescapeChunk_getElem?, or_maskBit_eq]

/-- The chunk made of a group of up to 7 bytes decodes to the group (R70, R72). -/
theorem unescapeChunk_escapeGroup (grp : List Byte) (h : grp.length ≤ 7) :
    unescapeChunk (escapeGroup grp) = grp := by
  refine List.ext_getElem? fun i => ?_
  rw [escapeGroup, unescapeChunk_cons_getElem?, escapeMask_getLsbD grp h, List.getElem?_map]
  cases grp[i]? with
  | none => rfl
  | some b => exact congrArg some (restore_bit7 b)

/-- UNESCAPE leaves the seven low bits of every payload byte (R72). -/
theorem unescapeChunk_map_and_7F (mask : Byte) (payload : List Byte) :
    (unescapeChunk (mask :: payload)).map (· &&& 0x7F#8) = payload.map (· &&& 0x7F#8) := by
  refine List.ext_getElem? fun i => ?_
  simp only [List.getElem?_map, unescapeChunk_cons_getElem?, Option.map_map, Function.comp_def,
    ite_or_80_and_7F]

theorem map_and_7F_eq_self_iff (bs : List Byte) :
    bs.map (· &&& 0x7F#8) = bs ↔ ∀ b ∈ bs, b ≤ 0x7F#8 := by
  conv_lhs => rhs; rw [← List.map_id bs]
  simp only [List.map_inj_left, id, and_7F_eq_self_iff]

/-- Escaping what a chunk of 7-bit payload bytes decodes to gives the mask bits that have a payload
byte. -/
theorem escapeMask_unescapeChunk_getLsbD (mask : Byte) {payload : List Byte}
    (h : payload.length ≤ 7) (hlow : ∀ p ∈ payload, p ≤ 0x7F#8) (i : Nat) :
    (escapeMask (unescapeChunk (mask :: payload))).getLsbD i =
      (decide (i < payload.length) && mask.getLsbD i) := by
  rw [escapeMask_getLsbD _ (by rwa [unescapeChunk_cons_length]), unescapeChunk_cons_getElem?]
  by_cases hi : i < payload.length
  · have hp := (le_7F_iff_getLsbD _).1 (hlow _ (List.getElem_mem hi))
    rw [List.getElem?_eq_getElem hi, Option.map_some, Option.any_some, ite_or_80_getLsbD_7, hp]
    simp [hi]
  · simp [hi]

/-- The mask comes back exactly if it has no bit without a payload byte, bit 7 included. -/
theorem escapeMask_unescapeChunk_eq_iff (mask : Byte) {payload : List Byte}
    (h : payload.length ≤ 7) (hlow : ∀ p ∈ payload, p ≤ 0x7F#8) :
    escapeMask (unescapeChunk (mask :: payload)) = mask ↔
      mask ≤ 0x7F#8 ∧ ∀ i, payload.length ≤ i → i ≤ 6 → mask.getLsbD i = false := by
  have hbit := escapeMask_unescapeChunk_getLsbD mask h hlow
  constructor
  · intro heq
    have hoff : ∀ i, payload.length ≤ i → mask.getLsbD i = false := fun i hi => by
      simpa [heq, Nat.not_lt.2 hi] using hbit i
    exact ⟨(le_7F_iff_getLsbD mask).2 (hoff 7 h), fun i hi _ => hoff i hi⟩
  · rintro ⟨hmask, hoff⟩
    refine BitVec.eq_of_getLsbD_eq fun i hi => ?_
    rw [hbit]
    by_cases hin : i < payload.length
    · simp [hin]
    · rcases Nat.lt_or_ge i 7 with h7 | h7
      · rw [hoff i (by omega) (by omega), Bool.and_false]
      · obtain rfl : i = 7 := by omega
        rw [(le_7F_iff_getLsbD mask).1 hmask, Bool.and_false]

/-- A chunk comes back from its decoding exactly if its bytes are 7-bit and its mask has no bit without a
payload byte (R74, R76). -/
theorem escapeGroup_unescapeChunk_eq_iff (mask : Byte) {payload : List Byte}
    (h : payload.length ≤ 7) :
    escapeGroup (unescapeChunk (mask :: payload)) = mask :: payload ↔
      (∀ b ∈ mask :: payload, b ≤ 0x7F#8) ∧
        ∀ i, payload.length ≤ i → i ≤ 6 → mask.getLsbD i = false := by
  rw [escapeGroup, List.cons.injEq, unescapeChunk_map_and_7F, map_and_7F_eq_self_iff,
    List.forall_mem_cons, and_congr_left (escapeMask_unescapeChunk_eq_iff mask h)]
  tauto

/-! The sequence. -/

/-- UNESCAPE undoes ESCAPE (R75). -/
theorem unescape_escape (bs : List Byte) : unescape (escape bs) = bs := by
  induction bs using group_induction 7 (by decide) with
  | nil => simp
  | short grp h0 h =>
    rw [escape_short grp h0 h.le, unescape_short _ (by simp) (by rw [escapeGroup_length]; omega),
      unescapeChunk_escapeGroup grp h.le]
  | full grp rest h ih =>
    rw [escape_append grp rest h, unescape_append _ _ (by simp [h]),
      unescapeChunk_escapeGroup grp h.le, ih]

theorem validEscaped_nil : ValidEscaped [] := ⟨nofun, by decide, nofun⟩

/-- The conditions of R74 on a last chunk that is not full. -/
theorem validEscaped_short_iff (mask : Byte) {payload : List Byte} (h : payload.length < 7) :
    ValidEscaped (mask :: payload) ↔ payload ≠ [] ∧ (∀ b ∈ mask :: payload, b ≤ 0x7F#8) ∧
      ∀ i, payload.length ≤ i → i ≤ 6 → mask.getLsbD i = false := by
  have hmod : (mask :: payload).length % 8 = payload.length + 1 :=
    Nat.mod_eq_of_lt (Nat.succ_lt_succ h)
  have hdiv : (mask :: payload).length / 8 = 0 := Nat.div_eq_of_lt (Nat.succ_lt_succ h)
  simp only [ValidEscaped, chunkLen, hmod, hdiv, Nat.add_sub_cancel, ne_eq, Nat.add_eq_right,
    List.length_eq_zero_iff, Nat.mul_zero, List.getElem?_cons_zero, Option.some.injEq,
    Nat.add_one_ne_zero, not_false_eq_true, forall_const, forall_eq']
  tauto

/-- The conditions of R74 on a full chunk before the rest. -/
theorem validEscaped_append_iff {chunk : List Byte} (rest : List Byte) (h : chunk.length = 8) :
    ValidEscaped (chunk ++ rest) ↔ (∀ b ∈ chunk, b ≤ 0x7F#8) ∧ ValidEscaped rest := by
  have hmod : (chunk ++ rest).length % 8 = rest.length % 8 := by
    rw [List.length_append, h, Nat.add_mod_left]
  have hlast : (chunk ++ rest)[8 * ((chunk ++ rest).length / 8)]? =
      rest[8 * (rest.length / 8)]? := by
    rw [List.length_append, h, List.getElem?_append_right (by omega)]
    congr 1
    omega
  simp only [ValidEscaped, chunkLen, hmod, hlast, List.forall_mem_append, and_assoc]

/-- ESCAPE undoes UNESCAPE exactly on the valid escaped sequences (R74, R76). -/
theorem escape_unescape_eq_iff (bs : List Byte) :
    escape (unescape bs) = bs ↔ ValidEscaped bs := by
  induction bs using group_induction 8 (by decide) with
  | nil => simp [validEscaped_nil]
  | short chunk h0 h =>
    obtain ⟨mask, payload, rfl⟩ := List.exists_cons_of_length_pos h0
    have hpay : payload.length < 7 := Nat.lt_of_succ_lt_succ h
    rw [unescape_short _ h0 h.le, validEscaped_short_iff mask hpay]
    rcases payload.length.eq_zero_or_pos with hnil | hpos
    · simp [List.length_eq_zero_iff.1 hnil, unescapeChunk]
    · rw [escape_short _ (by simpa using hpos) (by simpa using hpay.le),
        escapeGroup_unescapeChunk_eq_iff mask hpay.le]
      simp [List.ne_nil_of_length_pos hpos]
  | full chunk rest h ih =>
    obtain ⟨mask, payload, rfl⟩ := List.exists_cons_of_length_pos (l := chunk) (by omega)
    have hpay : payload.length = 7 := by simpa using h
    have hchunk := escapeGroup_unescapeChunk_eq_iff mask hpay.le
    have hnone : ∀ i, payload.length ≤ i → i ≤ 6 → mask.getLsbD i = false := by omega
    rw [unescape_append _ rest h, escape_append _ _ (by simpa using hpay),
      List.append_eq_append_iff_of_size_eq_left (by simp), hchunk, ih,
      validEscaped_append_iff rest h, and_iff_left hnone]

/-- Settles O10: ESCAPE writes the escaped sequence, which UNESCAPE undoes. -/
theorem unescapeUndoesEscape : Obligations.UnescapeUndoesEscape := by
  intro s d hd
  refine ⟨_, escape d, execEscape_of_holds hd, s.putOutput_outHolds _, fun u hu => ?_⟩
  refine ⟨_, execUnescape_of_holds hu, ?_⟩
  have hout : (u.afterUnescape (escape d)).OutHolds (unescape (escape d)) := u.putOutput_outHolds _
  rwa [unescape_escape] at hout

/-- Settles O11: what ESCAPE writes back is the sequence exactly where R74 holds. -/
theorem escapeUndoesUnescapeOnValid : Obligations.EscapeUndoesUnescapeOnValid := fun s e he =>
  ⟨_, unescape e, execUnescape_of_holds he, s.putOutput_outHolds _, fun u hu =>
    ⟨_, escape (unescape e), execEscape_of_holds hu, u.putOutput_outHolds _,
      escape_unescape_eq_iff e⟩⟩

end Sys2Proof.Machine
end

section
/-! SUPPORT. What ESCAPE and UNESCAPE write, read off the input index by index (R70 to R73, R82). -/

namespace Sys2Proof.Machine

/-- Element `j` of what a pass makes of group `g`, where each full group makes `m` elements. -/
theorem groupPass_getElem? {α β : Type} {d m : Nat} (hd : 0 < d) {f : List α → List β}
    (hf : ∀ grp, grp.length = d → (f grp).length = m) (bs : List α) {g j : Nat}
    (hg : g < ceilDiv bs.length d) (hj : j < m) :
    (groupPass d f bs)[m * g + j]? = (f (slice bs (d * g) (d * g + d)))[j]? := by
  induction bs using group_induction d hd generalizing g with
  | nil => simp [ceilDiv_zero d hd] at hg
  | short grp h0 h =>
    rw [ceilDiv_short _ _ h0 h.le] at hg
    obtain rfl : g = 0 := by omega
    rw [groupPass_short d f grp h0 h.le, Nat.mul_zero, Nat.mul_zero, Nat.zero_add, Nat.zero_add,
      slice_zero, List.take_of_length_le h.le]
  | full grp rest h ih =>
    rw [groupPass_append d hd f grp rest h]
    cases g with
    | zero =>
      rw [Nat.mul_zero, Nat.mul_zero, Nat.zero_add, Nat.zero_add, slice_zero,
        List.getElem?_append_left (by rwa [hf grp h]), ← h, List.take_left]
    | succ g =>
      rw [List.length_append, h, ceilDiv_add _ _ hd] at hg
      rw [show m * (g + 1) + j = (f grp).length + (m * g + j) by rw [hf grp h]; ring,
        List.getElem?_append_right (Nat.le_add_right _ _), Nat.add_sub_cancel_left,
        ih (Nat.lt_of_succ_lt_succ hg), show d * (g + 1) = d + d * g by ring, Nat.add_assoc,
        slice_append_right _ _ _ _ _ h]

/-- Byte `j` of the chunk ESCAPE writes for group `g` (R70). -/
theorem escape_getElem? (bs : List Byte) {g j : Nat} (hg : g < ceilDiv bs.length 7) (hj : j < 8) :
    (escape bs)[8 * g + j]? = (escapeGroup (slice bs (7 * g) (7 * g + 7)))[j]? :=
  groupPass_getElem? (by decide) (fun grp h => by rw [escapeGroup_length, h]) bs hg hj

theorem slice_length_le {α : Type} (s : List α) (a d : Nat) : (slice s a (a + d)).length ≤ d := by
  rw [slice_length]
  omega

/-- Bit 7 of a group's mask byte is 0: a group has at most 7 bytes (R71). -/
theorem escapeMask_getLsbD_7 {grp : List Byte} (h : grp.length ≤ 7) :
    (escapeMask grp).getLsbD 7 = false := by
  rw [escapeMask_getLsbD grp h, List.getElem?_eq_none h, Option.any_none]

/-- Every byte of a group's chunk is at most 0x7F (R71). -/
theorem escapeGroup_le {grp : List Byte} (h : grp.length ≤ 7) :
    ∀ b ∈ escapeGroup grp, b ≤ 0x7F#8 := by
  rw [escapeGroup, List.forall_mem_cons, List.forall_mem_map]
  exact ⟨(le_7F_iff_getLsbD _).2 (escapeMask_getLsbD_7 h), fun b _ => and_7F_le b⟩

/-- Every byte ESCAPE writes is at most 0x7F (R82). -/
theorem escape_le (bs : List Byte) : ∀ b ∈ escape bs, b ≤ 0x7F#8 := by
  intro b hb
  obtain ⟨g, -, hbg⟩ := List.mem_flatMap.1 hb
  exact escapeGroup_le (slice_length_le bs _ _) b hbg

/-- Where IN has no bytes, IN holds no sequence (R21). -/
theorem State.not_inHolds_of_noValue {s : State} (h : s.inBuf.value = none) (bs : List Byte) :
    ¬ s.InHolds bs := by
  rintro ⟨-, m, hm, -⟩
  cases h.symm.trans hm

/-- Settles O9: the chunk of each group holds 7-bit bytes only. -/
theorem escapeOutputIsSevenBit : Obligations.EscapeOutputIsSevenBit := fun s bs hs =>
  ⟨_, escape bs, execEscape_of_holds hs, s.putOutput_outHolds _, escape_le bs⟩

/-- Settles O7: OUT is read off chunk by chunk, the mask bit by bit. -/
theorem escapeWritesMaskedGroups : Obligations.EscapeWritesMaskedGroups := by
  refine ⟨rfl, fun s bs hs => ?_,
    fun s hs => needInput_of_not_holds (s.not_inHolds_of_noValue hs) _⟩
  refine ⟨_, escape bs, execEscape_of_holds hs, rfl, s.putOutput_outHolds _, rfl,
    escape_length bs, fun g hg => ⟨?_, fun i b hi hb => ?_⟩⟩
  · have hlen := slice_length_le bs (7 * g) 7
    refine ⟨_, escape_getElem? bs (j := 0) hg (by decide), escapeMask_getLsbD_7 hlen, fun i hi => ?_⟩
    rw [escapeMask_getLsbD _ hlen, slice_getElem?, if_pos (by omega)]
  · rw [Nat.add_assoc, escape_getElem? bs hg (by omega), escapeGroup, Nat.add_comm 1 i,
      List.getElem?_cons_succ, List.getElem?_map, slice_getElem?, if_pos (by omega), hb,
      Option.map_some]

/-- Settles O8: each byte of OUT is its payload byte and its mask bit. -/
theorem unescapeRestoresHighBits : Obligations.UnescapeRestoresHighBits := by
  refine ⟨rfl, fun s bs hs => ?_,
    fun s hs => needInput_of_not_holds (s.not_inHolds_of_noValue hs) _⟩
  refine ⟨_, unescape bs, execUnescape_of_holds hs, rfl, s.putOutput_outHolds _, rfl,
    unescape_length bs, fun c i mask p hi hmask hp => ?_⟩
  rw [unescape_getElem? bs c i hi, hmask, hp, Option.bind_some, Option.map_some]

end Sys2Proof.Machine
end

section
/-! SUPPORT. The byte-serial forms (R77 to R80) against the functional ones: what a unit holds within a group
or a chunk, kept by each byte it takes. -/

namespace Sys2Proof.Machine

/-- UNESCAPE's unit within a chunk of which it has taken the bytes `chunk` (R77). -/
structure UnescapeUnit.Within (u : UnescapeUnit) (chunk : List Byte) : Prop where
  short : chunk.length < 8
  pos : u.pos = BitVec.ofNat 3 chunk.length
  mask : ∀ b ∈ chunk.head?, u.mask = b

theorem UnescapeUnit.within_nil {u : UnescapeUnit} (h : u.pos = 0#3) : u.Within [] :=
  ⟨by decide, h, nofun⟩

theorem UnescapeUnit.start_within (u : UnescapeUnit) : u.start.Within [] := within_nil rfl

/-- A byte at `U_POS = 0` is the mask byte of a chunk (R77). -/
theorem UnescapeUnit.feed_mask {u : UnescapeUnit} (h : u.pos = 0#3) (b : Byte) :
    u.feed b = ({ pos := 1#3, mask := b }, []) := if_pos h

/-- A byte at any other `U_POS` is a payload byte; `U_POS` counts on and wraps after 7 (R77). -/
theorem UnescapeUnit.feed_payload {u : UnescapeUnit} (h : u.pos ≠ 0#3) (b : Byte) :
    u.feed b = ({ u with pos := u.pos + 1#3 },
      [if u.mask.getLsbD (u.pos.toNat - 1) then b ||| 0x80#8 else b]) := by
  have hwrap : (if u.pos = 7#3 then 0#3 else u.pos + 1#3) = u.pos + 1#3 := by
    split
    · next h7 => rw [h7]; rfl
    · rfl
  rw [feed, if_neg h, hwrap, or_maskBit_eq]

/-- A payload byte more decodes to a byte more (R72). -/
theorem unescapeChunk_concat (mask : Byte) (payload : List Byte) (b : Byte) :
    unescapeChunk (mask :: (payload ++ [b])) = unescapeChunk (mask :: payload) ++
      [if mask.getLsbD payload.length then b ||| 0x80#8 else b] := by
  simp [unescapeChunk, List.zipIdx_append, or_maskBit_eq]

/-- A byte makes UNESCAPE's unit emit what it adds to the chunk's decoding, and moves it on within the chunk
or to the start of the next (R77). -/
theorem UnescapeUnit.Within.feed {u : UnescapeUnit} {chunk : List Byte} (hu : u.Within chunk)
    (b : Byte) :
    unescapeChunk (chunk ++ [b]) = unescapeChunk chunk ++ (u.feed b).2 ∧
      (chunk.length < 7 → (u.feed b).1.Within (chunk ++ [b])) ∧
      (chunk.length = 7 → (u.feed b).1.Within []) := by
  obtain ⟨hshort, hpos, hmask⟩ := hu
  cases chunk with
  | nil =>
    rw [feed_mask hpos]
    exact ⟨rfl, fun _ => ⟨by simp, rfl, by simp⟩, nofun⟩
  | cons mask payload =>
    rw [List.length_cons] at hshort hpos ⊢
    have hnat : u.pos.toNat = payload.length + 1 := by
      rw [hpos, BitVec.toNat_ofNat, Nat.mod_eq_of_lt hshort]
    have hne : u.pos ≠ 0#3 := fun h0 => by simp [h0] at hnat
    have hnext : u.pos + 1#3 = BitVec.ofNat 3 (payload.length + 1 + 1) := by
      rw [hpos, ← BitVec.ofNat_add]
    rw [feed_payload hne, hmask mask rfl, hnat, Nat.add_sub_cancel]
    refine ⟨unescapeChunk_concat mask payload b, fun h => ⟨?_, ?_, ?_⟩, fun h => within_nil ?_⟩
    · simpa using Nat.succ_lt_succ h
    · simpa using hnext
    · simp
    · rw [hnext, h]
      rfl

/-- From within a chunk, UNESCAPE's unit emits the rest of what the functional form writes (R81). -/
theorem UnescapeUnit.Within.feedAll {u : UnescapeUnit} {chunk : List Byte} (hu : u.Within chunk)
    (bs : List Byte) : unescape (chunk ++ bs) = unescapeChunk chunk ++ (u.feedAll bs).2 := by
  induction bs generalizing u chunk with
  | nil =>
    rw [List.append_nil, UnescapeUnit.feedAll, List.append_nil]
    rcases chunk.length.eq_zero_or_pos with hnil | hpos
    · simp [List.length_eq_zero_iff.1 hnil, unescapeChunk]
    · exact unescape_short chunk hpos hu.short.le
  | cons b bs ih =>
    obtain ⟨hemit, hwithin, hend⟩ := hu.feed b
    rw [List.append_cons, UnescapeUnit.feedAll, ← List.append_assoc, ← hemit]
    rcases Nat.lt_or_ge chunk.length 7 with h | h
    · exact ih (hwithin h)
    · have h7 : chunk.length = 7 := Nat.le_antisymm (Nat.le_of_lt_succ hu.short) h
      rw [unescape_append _ bs (by rw [List.length_append, h7]; rfl)]
      exact congrArg _ (ih (hend h7))

/-- Byte-serial UNESCAPE emits what the functional form writes (R81). -/
theorem UnescapeUnit.run_eq_unescape (u : UnescapeUnit) (bs : List Byte) :
    (u.run bs).2 = unescape bs := (u.start_within.feedAll bs).symm

/-- ESCAPE's unit within a group of which it has taken the bytes `grp` (R79). -/
structure EscapeUnit.Within (e : EscapeUnit) (grp : List Byte) : Prop where
  short : grp.length < 7
  cnt : e.cnt = BitVec.ofNat 3 grp.length
  mask : e.mask = escapeMask grp
  buf : e.buf.toList.take grp.length = grp.map (· &&& 0x7F#8)

theorem EscapeUnit.within_nil {e : EscapeUnit} (hcnt : e.cnt = 0#3) (hmask : e.mask = 0x00#8) :
    e.Within [] := ⟨by decide, hcnt, hmask, rfl⟩

theorem EscapeUnit.start_within (e : EscapeUnit) : e.start.Within [] := within_nil rfl rfl

theorem EscapeUnit.Within.cnt_toNat {e : EscapeUnit} {grp : List Byte} (he : e.Within grp) :
    e.cnt.toNat = grp.length := by
  have hshort := he.short
  rw [he.cnt, BitVec.toNat_ofNat]
  omega

/-- A byte more adds its bit to the group's mask (R70). -/
theorem escapeMask_concat (grp : List Byte) (b : Byte) :
    escapeMask (grp ++ [b]) = escapeMask grp ||| ((b &&& 0x80#8) >>> (7 - grp.length)) := by
  simp [escapeMask, List.zipIdx_append]

/-- The end of the input makes ESCAPE's unit emit the chunk of the group it is within (R80). -/
theorem EscapeUnit.Within.flush {e : EscapeUnit} {grp : List Byte} (he : e.Within grp) :
    e.flush.2 = escape grp := by
  have hcnt : e.cnt = 0#3 ↔ grp.length = 0 := by
    rw [← he.cnt_toNat]
    exact BitVec.toNat_inj.symm
  rcases grp.length.eq_zero_or_pos with hnil | hpos
  · rw [List.length_eq_zero_iff.1 hnil, escape_nil, EscapeUnit.flush, if_pos (hcnt.2 hnil)]
  · rw [escape_short grp hpos he.short.le, EscapeUnit.flush, if_neg (mt hcnt.1 hpos.ne'),
      he.cnt_toNat, he.buf, he.mask, escapeGroup]

/-- The byte put at `E_CNT` follows the group's bytes in `E_BUF` (R79). -/
theorem EscapeUnit.Within.buf_set {e : EscapeUnit} {grp : List Byte} (he : e.Within grp)
    (x : Byte) : (e.buf.setIfInBounds e.cnt.toNat x).toList.take (grp.length + 1) =
      grp.map (· &&& 0x7F#8) ++ [x] := by
  have hroom : grp.length < e.buf.toList.length := by simpa using he.short
  rw [Vector.toList_setIfInBounds, he.cnt_toNat, List.take_add_one, List.take_set_of_le le_rfl,
    he.buf, List.getElem?_set_self hroom, Option.toList_some]

theorem EscapeUnit.Within.cnt_succ {e : EscapeUnit} {grp : List Byte} (he : e.Within grp) :
    e.cnt + 1#3 = BitVec.ofNat 3 (grp.length + 1) := by
  rw [he.cnt, ← BitVec.ofNat_add]

/-- A byte that does not fill the group moves ESCAPE's unit on within it and emits nothing (R79). -/
theorem EscapeUnit.Within.feed_short {e : EscapeUnit} {grp : List Byte} (he : e.Within grp)
    (h : grp.length < 6) (b : Byte) :
    (e.feed b).1.Within (grp ++ [b]) ∧ (e.feed b).2 = [] := by
  have hne : e.cnt + 1#3 ≠ 7#3 := by
    rw [he.cnt_succ, Ne, ← BitVec.toNat_inj, BitVec.toNat_ofNat, BitVec.toNat_ofNat]
    omega
  rw [EscapeUnit.feed, if_neg hne]
  refine ⟨⟨?_, ?_, ?_, ?_⟩, rfl⟩
  · simpa using Nat.succ_lt_succ h
  · simpa using he.cnt_succ
  · rw [escapeMask_concat, ← he.mask, ← he.cnt_toNat]
  · rw [List.length_append, List.length_singleton, he.buf_set, List.map_append, List.map_singleton]

/-- The byte that fills the group makes ESCAPE's unit emit the group's chunk and start the next (R79). -/
theorem EscapeUnit.Within.feed_last {e : EscapeUnit} {grp : List Byte} (he : e.Within grp)
    (h : grp.length = 6) (b : Byte) :
    (e.feed b).1.Within [] ∧ (e.feed b).2 = escapeGroup (grp ++ [b]) := by
  have hlast : e.cnt + 1#3 = 7#3 := by
    rw [he.cnt_succ, h]
  have hbuf := he.buf_set (b &&& 0x7F#8)
  rw [h, List.take_of_length_le (by simp)] at hbuf
  rw [EscapeUnit.feed, if_pos hlast]
  refine ⟨within_nil rfl rfl, ?_⟩
  rw [escapeGroup, escapeMask_concat, ← he.mask, ← he.cnt_toNat, hbuf, List.map_append,
    List.map_singleton]

/-- From within a group, ESCAPE's unit emits what the functional form writes from the group on (R81). -/
theorem EscapeUnit.Within.feedAll {e : EscapeUnit} {grp : List Byte} (he : e.Within grp)
    (bs : List Byte) :
    (e.feedAll bs).2 ++ (e.feedAll bs).1.flush.2 = escape (grp ++ bs) := by
  induction bs generalizing e grp with
  | nil => rw [List.append_nil, EscapeUnit.feedAll, List.nil_append, he.flush]
  | cons b bs ih =>
    rw [List.append_cons, EscapeUnit.feedAll, List.append_assoc]
    rcases Nat.lt_or_ge grp.length 6 with h | h
    · obtain ⟨hwithin, hemit⟩ := he.feed_short h b
      rw [hemit, List.nil_append, ih hwithin]
    · have h6 : grp.length = 6 := Nat.le_antisymm (Nat.le_of_lt_succ he.short) h
      obtain ⟨hwithin, hemit⟩ := he.feed_last h6 b
      rw [hemit, ih hwithin, List.nil_append, escape_append _ bs (by simp [h6])]

/-- Byte-serial ESCAPE emits what the functional form writes (R81). -/
theorem EscapeUnit.run_eq_escape (e : EscapeUnit) (bs : List Byte) : (e.run bs).2 = escape bs :=
  e.start_within.feedAll bs

/-- Settles O13: each unit starts within an empty group or chunk, whatever it held before. -/
theorem byteSerialFormsEqualFunctional : Obligations.ByteSerialFormsEqualFunctional := by
  refine ⟨fun u s bs hs => ⟨_, execUnescape_of_holds hs, ?_, rfl⟩,
    fun e s bs hs => ⟨_, execEscape_of_holds hs, ?_, rfl, rfl⟩⟩
  · rw [u.run_eq_unescape]
    exact s.putOutput_outHolds _
  · rw [e.run_eq_escape]
    exact s.putOutput_outHolds _

end Sys2Proof.Machine
end

section
/-! SUPPORT. The SysexFramer unit: what FRAME and REQUEST_FRAME write to OUT, and what CLASSIFY makes of a
message that is of this protocol and of one that is not (R83 to R89). -/

namespace Sys2Proof.Machine

/-- An operation that reads a register holding no value records the fault of such a register (R21, R99). -/
theorem exec_of_unwritten {i : Instr} {s : State} {r : Reg} (hr : r ∈ operandsRead i)
    (hu : s.Unwritten r) :
    ∃ r ∈ operandsRead i, s.Unwritten r ∧
      exec i s = .next (s.recordFault (.unwrittenOperand r)) := by
  obtain ⟨t, ht, r, hr, hu, rfl⟩ := unwrittenOperandsFault.1 i s ⟨r, hr, hu⟩
  exact ⟨r, hr, hu, ht⟩

/-- A state that records the fault of an operation is none that records no new fault. -/
theorem FaultRecorded.faults_ne {i : Instr} {s t : State} (h : FaultRecorded i s t) :
    t.faults ≠ s.faults := by
  obtain ⟨r, -, -, rfl⟩ := h
  exact s.recordFault_faults_ne _

/-- OUT holds at most one sequence. -/
theorem State.OutHolds.unique {s : State} {bs cs : List Byte} (h : s.OutHolds bs)
    (h' : s.OutHolds cs) : bs = cs :=
  Except.ok.inj ((State.outputBytes_of_holds h).symm.trans (State.outputBytes_of_holds h'))

theorem plainFrame_length (mfr prod : Byte) (dev : DeviceId) (mtype mid : Byte) (bs : List Byte) :
    (plainFrame mfr prod dev mtype mid bs).length = 7 + bs.length := List.length_append

theorem requestFrameBytes_length (mfr prod : Byte) (dev : DeviceId) (v0 v1 v2 mtype mid : Byte)
    (bs : List Byte) :
    (requestFrameBytes mfr prod dev v0 v1 v2 mtype mid bs).length = 14 + bs.length :=
  List.length_append

/-- Settles O15: each operand holds a value and OUT is the frame, or one holds none and its fault is
recorded. -/
theorem frameWritesHeaderAndPayload : Obligations.FrameWritesHeaderAndPayload := by
  refine ⟨rfl, fun s dev mtype mid bs hd ht hi hs => ?_, fun s h => ?_⟩
  · exact ⟨_, execFrame_of_holds hd ht hi hs, rfl, s.putOutput_outHolds _,
      congrArg some (plainFrame_length ..), rfl⟩
  · rcases h with h | h | h | h
    · exact exec_of_unwritten (r := .operand .dev) (by decide) h
    · exact exec_of_unwritten (r := .operand .mtype) (by decide) h
    · exact exec_of_unwritten (r := .operand .mid) (by decide) h
    · exact exec_of_unwritten (r := .input) (by decide) (s.not_inHolds_of_noValue h)

/-- Settles O16: each operand holds a value and OUT is the request frame, or one holds none and its fault
is recorded. -/
theorem requestFrameWritesMagicAndVersion : Obligations.RequestFrameWritesMagicAndVersion := by
  refine ⟨rfl, fun s dev v0 v1 v2 mtype mid bs hd h0 h1 h2 ht hi hs => ?_, fun s h => ?_⟩
  · exact ⟨_, execRequestFrame_of_holds hd h0 h1 h2 ht hi hs, rfl, s.putOutput_outHolds _,
      congrArg some (requestFrameBytes_length ..), rfl⟩
  · rcases h with h | h | h | h | h | h | h
    · exact exec_of_unwritten (r := .operand .dev) (by decide) h
    · exact exec_of_unwritten (r := .operand .ver0) (by decide) h
    · exact exec_of_unwritten (r := .operand .ver1) (by decide) h
    · exact exec_of_unwritten (r := .operand .ver2) (by decide) h
    · exact exec_of_unwritten (r := .operand .mtype) (by decide) h
    · exact exec_of_unwritten (r := .operand .mid) (by decide) h
    · exact exec_of_unwritten (r := .input) (by decide) (s.not_inHolds_of_noValue h)

/-- CLASSIFY of a message of this protocol returns its bytes 5 and 6 (R87). -/
theorem execClassify_of_ours {s : State} {bs : List Byte} {mtype mid : Byte} (hs : s.InHolds bs)
    (ho : IsOurs s.cfgMfr s.cfgProd bs) (ht : bs[5]? = some mtype) (hi : bs[6]? = some mid) :
    execClassify s = .next ((s.putClass (mtype, mid)).complete .ok) := by
  obtain ⟨hlen, h0, h1, h2, h3⟩ := ho
  have hc : classifyBytes s.cfgMfr s.cfgProd bs = some (mtype, mid) :=
    (classifyBytes_eq_some_iff _ _ _ _).2 ⟨hlen, h0, h1, h2, h3, ht, hi⟩
  rw [execClassify_of_holds hs, State.afterClassify, hc]

/-- CLASSIFY of any other message returns the sentinel (R87). -/
theorem execClassify_of_notOurs {s : State} {bs : List Byte} (hs : s.InHolds bs)
    (ho : ¬ IsOurs s.cfgMfr s.cfgProd bs) :
    execClassify s = .next ((s.putClass sentinel).complete .notOurs) := by
  have hc : classifyBytes s.cfgMfr s.cfgProd bs = none := by
    refine Option.eq_none_iff_forall_ne_some.2 fun ti h => ho ?_
    obtain ⟨hlen, h0, h1, h2, h3, -⟩ := (classifyBytes_eq_some_iff _ _ _ _).1 h
    exact ⟨hlen, h0, h1, h2, h3⟩
  rw [execClassify_of_holds hs, State.afterClassify, hc]

/-- Settles O17: a message is of this protocol, with a byte 5 and a byte 6, or it is not. -/
theorem classifyReturnsTypeAndId : Obligations.ClassifyReturnsTypeAndId := by
  refine ⟨rfl, fun s bs hs => ?_,
    fun s hs => needInput_of_not_holds (s.not_inHolds_of_noValue hs) _⟩
  by_cases ho : IsOurs s.cfgMfr s.cfgProd bs
  · have hlen : 6 < bs.length := ho.1
    have ht := List.getElem?_eq_getElem (Nat.lt_of_succ_lt hlen)
    have hi := List.getElem?_eq_getElem hlen
    exact ⟨_, execClassify_of_ours hs ho ht hi, rfl,
      fun _ => ⟨rfl, ht.symm, rfl, hi.symm, rfl⟩, fun hn => absurd ho hn⟩
  · exact ⟨_, execClassify_of_notOurs hs ho, rfl, fun h => absurd h ho, fun _ => ⟨rfl, rfl, rfl⟩⟩

/-- Settles O18: RTYPE and RID take the sentinel's bytes on both sides, STATUS its own code on each. -/
theorem sentinelToldApartByStatusOnly : Obligations.SentinelToldApartByStatusOnly :=
  fun _ _ _ _ hs hs' ho ht hi hn =>
    ⟨_, _, execClassify_of_ours hs ho ht hi, execClassify_of_notOurs hs' hn, rfl, rfl, rfl, rfl⟩

/-- FRAME and REQUEST_FRAME, where they record no fault, write the header of MTYPE and MID first (R60,
R61). -/
theorem exec_frame_writes_header {s t : State}
    (h : exec .frame s = .next t ∨ exec .requestFrame s = .next t) (hf : t.faults = s.faults) :
    ∃ dev mtype mid rest, s.mtype.value = some mtype ∧ s.mid.value = some mid ∧
      t.OutHolds (frameHeader s.cfgMfr s.cfgProd dev mtype mid ++ rest) := by
  rcases h with h | h
  · rcases execFrame_cases s with ⟨dev, mtype, mid, bs, -, ht, hi, -, he⟩ | ⟨t', he, hr⟩
    · cases h.symm.trans he
      exact ⟨dev, mtype, mid, bs, ht, hi, s.putOutput_outHolds _⟩
    · cases h.symm.trans he
      exact absurd hf hr.faults_ne
  · rcases execRequestFrame_cases s with
      ⟨dev, v0, v1, v2, mtype, mid, bs, -, -, -, -, ht, hi, -, he⟩ | ⟨t', he, hr⟩
    · cases h.symm.trans he
      exact ⟨dev, mtype, mid, magic ++ [v0, v1, v2] ++ bs, ht, hi, s.putOutput_outHolds _⟩
    · cases h.symm.trans he
      exact absurd hf hr.faults_ne

/-- Bytes that begin with a frame header are a message of this protocol, whatever follows (R60, R87). -/
theorem isOurs_frameHeader_append (mfr prod : Byte) (dev : DeviceId) (mtype mid : Byte)
    (rest : List Byte) : IsOurs mfr prod (frameHeader mfr prod dev mtype mid ++ rest) := by
  simp [IsOurs, frameHeader]

/-- Settles O19: what either operation wrote begins with the header, and CLASSIFY reads nothing else. -/
theorem classifyRecognisesFrames : Obligations.ClassifyRecognisesFrames := by
  intro s t u out h hf hout hin hmfr hprod
  obtain ⟨dev, mtype, mid, rest, ht, hi, hheader⟩ := exec_frame_writes_header h hf
  cases hout.unique hheader
  have ho : IsOurs u.cfgMfr u.cfgProd (frameHeader s.cfgMfr s.cfgProd dev mtype mid ++ rest) := by
    rw [hmfr, hprod]
    exact isOurs_frameHeader_append ..
  exact ⟨_, execClassify_of_ours hin ho rfl rfl, ht.symm, hi.symm, rfl⟩

end Sys2Proof.Machine
end

section
/-! SUPPORT. The PatternDecoder unit: the step byte's fields, the guard's outcomes, the grid and the scalars
of a payload that passes it (R90 to R98), and that no step breaks the PAT registers apart. -/

namespace Sys2Proof.Machine

/-- The repeat count is the number in bits 6 and 5 (R64). -/
theorem stepDecode_repeatCount (b : Byte) :
    (stepDecode b).repeatCount = BitVec.ofNat 2 (b.toNat / 32) := by
  simp only [stepDecode, BitVec.extractLsb', Nat.shiftRight_eq_div_pow, Nat.reducePow]

/-- Step bytes that differ only in bits 1 and 7 decode alike (R90). -/
theorem stepDecode_congr {b b' : Byte} (h : b &&& 0x7D#8 = b' &&& 0x7D#8) :
    stepDecode b = stepDecode b' := by
  rw [← stepDecode_masked b, h, stepDecode_masked]

/-- The layout of the build meets R95, whichever of the two tables it is. -/
theorem scalarLayout_admissible : Config.scalarLayout.Admissible := by
  unfold Config.scalarLayout
  split
  · assumption
  · decide

/-- Every scalar field ends inside an 889-byte payload (R95). -/
theorem scalarLayout_end_le (f : ScalarField) :
    (Config.scalarLayout.get f).offset + (Config.scalarLayout.get f).width ≤ 889 := by
  obtain ⟨-, -, -, hinside, -⟩ := scalarLayout_admissible
  exact (hinside f f.mem_all).2

/-- filterSteps is 64 entries of one width (R95). -/
theorem filterSteps_width_eq :
    Config.scalarLayout.filterSteps.width = 64 * (Config.scalarLayout.filterSteps.width / 64) := by
  obtain ⟨-, -, hmod, -, -⟩ := scalarLayout_admissible
  omega

/-- Each scalar of an 889-byte payload has its field's width (R93). -/
theorem decodeScalars_length {bs : List Byte} (h : bs.length = 889) (f : ScalarField) :
    ((decodeScalars bs).get f).length = (Config.scalarLayout.get f).width := by
  have := scalarLayout_end_le f
  rw [decodeScalars_get, slice_length]
  omega

/-- A byte of a scalar is the payload's byte at the field's offset (R93). -/
theorem decodeScalars_getElem? (bs : List Byte) (f : ScalarField) {j : Nat}
    (hj : j < (Config.scalarLayout.get f).width) :
    ((decodeScalars bs).get f)[j]? = bs[(Config.scalarLayout.get f).offset + j]? := by
  rw [decodeScalars_get, slice_getElem?, if_pos (by omega)]

/-- Payloads that agree inside every scalar field have the same scalars (R98). -/
theorem decodeScalars_congr {bs bs' : List Byte} (h : bs.length = 889) (h' : bs'.length = 889)
    (hagree : ∀ (f : ScalarField) (k : Nat), (Config.scalarLayout.get f).offset ≤ k →
      k < (Config.scalarLayout.get f).offset + (Config.scalarLayout.get f).width →
      bs[k]? = bs'[k]?) : decodeScalars bs = decodeScalars bs' := by
  refine PerField.ext_get fun f => List.ext_getElem? fun j => ?_
  by_cases hj : j < (Config.scalarLayout.get f).width
  · rw [decodeScalars_getElem? bs f hj, decodeScalars_getElem? bs' f hj]
    exact hagree f _ (by omega) (by omega)
  · rw [List.getElem?_eq_none (by rw [decodeScalars_length h]; omega),
      List.getElem?_eq_none (by rw [decodeScalars_length h']; omega)]

/-- The step bytes are those at indices 2 to 769 (R94). -/
theorem stepIndex_bounds (t : Fin 12) (s : Fin 64) : 2 ≤ stepIndex t s ∧ stepIndex t s < 770 := by
  simp only [stepIndex, trackBase, steps]
  omega

/-- `PAT_STEP[t][s]` is the record of the byte found at index `2 + 64*t + s` (R93, R94). -/
theorem decodeGrid_of_getElem? {bs : List Byte} (h : bs.length = 889) {t : Fin 12} {s : Fin 64}
    {b : Byte} (hb : bs[2 + 64 * t.val + s.val]? = some b) :
    (decodeGrid bs h)[t][s] = stepDecode b := by
  rw [decodeGrid_get]
  exact congrArg stepDecode ((List.getElem_eq_iff _).2 hb)

/-- Payloads whose step bytes agree but for bits 1 and 7 have the same grid (R98). -/
theorem decodeGrid_congr {bs bs' : List Byte} (h : bs.length = 889) (h' : bs'.length = 889)
    (hagree : ∀ k b b', 2 ≤ k → k < 770 → bs[k]? = some b → bs'[k]? = some b' →
      b &&& 0x7D#8 = b' &&& 0x7D#8) : decodeGrid bs h = decodeGrid bs' h' := by
  refine StepGrid.ext_get fun t s => ?_
  rw [decodeGrid_get, decodeGrid_get]
  obtain ⟨hlo, hhi⟩ := stepIndex_bounds t s
  exact stepDecode_congr
    (hagree _ _ _ hlo hhi (List.getElem?_eq_getElem _) (List.getElem?_eq_getElem _))

/-- Every entry of filterSteps ends inside the field (R95). -/
theorem filterEntry_end_le (j : Fin 64) :
    j.val * (Config.scalarLayout.filterSteps.width / 64) +
      Config.scalarLayout.filterSteps.width / 64 ≤ Config.scalarLayout.filterSteps.width := by
  have hle := Nat.mul_le_mul_right (Config.scalarLayout.filterSteps.width / 64) j.isLt
  rwa [Nat.succ_mul, ← filterSteps_width_eq] at hle

/-- An entry of filterSteps is a slice of the field, of the width R95 gives an entry. -/
theorem filterEntry_eq_slice {bs : List Byte} (h : bs.length = 889) (j : Fin 64) :
    filterEntry (decodeScalars bs) j =
      slice ((decodeScalars bs).get .filterSteps)
        (j.val * (Config.scalarLayout.filterSteps.width / 64))
        (j.val * (Config.scalarLayout.filterSteps.width / 64) +
          Config.scalarLayout.filterSteps.width / 64) := by
  have hlen : (decodeScalars bs).filterSteps.length = Config.scalarLayout.filterSteps.width :=
    decodeScalars_length h .filterSteps
  rw [filterEntry, hlen, Nat.succ_mul, PerField.get]

theorem filterEntry_length {bs : List Byte} (h : bs.length = 889) (j : Fin 64) :
    (filterEntry (decodeScalars bs) j).length = Config.scalarLayout.filterSteps.width / 64 := by
  have hend := filterEntry_end_le j
  rw [filterEntry_eq_slice h, slice_length, decodeScalars_length h, PerField.get]
  omega

/-- A byte of an entry of filterSteps is the payload's byte at the entry's place in the field (R95). -/
theorem filterEntry_getElem? {bs : List Byte} (h : bs.length = 889) (j : Fin 64) {i : Nat}
    (hi : i < Config.scalarLayout.filterSteps.width / 64) :
    (filterEntry (decodeScalars bs) j)[i]? =
      bs[Config.scalarLayout.filterSteps.offset +
        j.val * (Config.scalarLayout.filterSteps.width / 64) + i]? := by
  have hend := filterEntry_end_le j
  rw [filterEntry_eq_slice h, slice_getElem?, if_pos (by omega),
    decodeScalars_getElem? _ _ (by rw [PerField.get]; omega), PerField.get, Nat.add_assoc]

/-- A payload that passes the guard has 889 bytes (R92). -/
theorem PassesGuard.length_eq {bs : List Byte} (hg : PassesGuard bs) : bs.length = 889 := hg.1

/-- PATTERN_DECODE of a payload that passes the guard writes its grid and its scalars (R93). -/
theorem execPatternDecode_of_guard {s : State} {bs : List Byte} (hs : s.InHolds bs)
    (hg : PassesGuard bs) :
    execPatternDecode s =
      .next ((s.putPattern (decodeGrid bs hg.length_eq) (decodeScalars bs)).complete .ok) := by
  obtain ⟨hlen, h0, h1⟩ := hg
  rw [execPatternDecode_of_holds hs, State.afterPattern]
  rcases decodePattern_cases bs with ⟨hn, -⟩ | ⟨-, hn, -⟩ | ⟨-, -, hn, -⟩ | ⟨_, -, -, hd⟩
  · exact absurd hlen hn
  · exact absurd h0 hn
  · exact absurd h1 hn
  · rw [hd]

/-- PATTERN_DECODE of a payload whose guard fails clears the PAT registers, with the status of the test
that failed (R92, R97). -/
theorem execPatternDecode_of_error {s : State} {bs : List Byte} {c : StatusCode} (hs : s.InHolds bs)
    (hc : decodePattern bs = .error c) : execPatternDecode s = .next (s.clearPattern.complete c) := by
  rw [execPatternDecode_of_holds hs, State.afterPattern, hc]

/-- PAT registers that an update leaves as they are stay whole. -/
theorem State.PatternWhole.of_same {s t : State} (h : s.PatternWhole) (ht : SamePattern s t) :
    t.PatternWhole := by
  obtain ⟨hstep, hscalar⟩ := ht
  rwa [State.PatternWhole, hstep, hscalar]

/-- PAT registers that all hold no value are whole. -/
theorem State.patternWhole_of_noValue {s : State} (hstep : s.patStep.value = none)
    (hscalar : s.patScalar.value = none) : s.PatternWhole := by
  simp [State.PatternWhole, hstep, hscalar]

/-- PATTERN_DECODE leaves the PAT registers whole, whatever they were (R93, R97). -/
theorem State.afterPattern_patternWhole (s : State) (bs : List Byte) :
    (s.afterPattern bs).PatternWhole := by
  rw [State.afterPattern]
  rcases decodePattern_cases bs with ⟨-, hd⟩ | ⟨-, -, hd⟩ | ⟨-, -, -, hd⟩ | ⟨hlen, -, -, hd⟩ <;> rw [hd]
  case inr.inr.inr =>
    refine ⟨rfl, fun v hv f => ?_⟩
    cases hv
    exact decodeScalars_length hlen f
  all_goals exact State.patternWhole_of_noValue rfl rfl

/-- Every operation keeps the PAT registers whole: PATTERN_DECODE writes or clears all of them, no other
operation any (R31, R97). -/
theorem exec_keeps_patternWhole {i : Instr} {s t : State} (hs : s.PatternWhole)
    (h : exec i s = .next t) : t.PatternWhole := by
  by_cases hi : i = .patternDecode
  · subst hi
    rcases execPatternDecode_cases s with ⟨bs, -, he⟩ | ⟨t', he, r, -, -, rfl⟩
    · cases h.symm.trans he
      exact s.afterPattern_patternWhole bs
    · cases h.symm.trans he
      exact hs
  · obtain ⟨f, hf, rfl⟩ := exec_effect h
    exact hs.of_same (hf.samePattern hi s)

/-- Settles O49: only PATTERN_DECODE and RESET touch the PAT registers, and both treat them as one. -/
theorem stepKeepsPatternWhole : Obligations.StepKeepsPatternWhole := fun _ _ hs h =>
  step_keeps (P := State.PatternWhole)
    (dequeue := fun _ _ h => h)
    (load := fun _ _ _ h => h)
    (set := fun s r v h => by simpa [State.PatternWhole] using h)
    (operation := fun _ _ _ h he => exec_keeps_patternWhole h he)
    (reserved := fun _ h => h)
    (read := fun _ _ h => h)
    (reset := fun _ _ => State.patternWhole_of_noValue rfl rfl)
    (fault := fun _ _ h => h) hs h

/-- Settles O20: the ST registers take the fields of SB's step byte, which bits 1 and 7 are no part of. -/
theorem stepDecodeReadsItsBits : Obligations.StepDecodeReadsItsBits :=
  ⟨rfl,
    fun _ b hb => ⟨_, execStepDecode_of_holds hb, rfl, rfl, rfl, rfl, rfl,
      congrArg some (stepDecode_repeatCount b), rfl⟩,
    fun _ _ => stepDecode_congr, fun _ hs => need_of_noValue hs _⟩

/-- Settles O21: the grid and the scalars of a payload that passes the guard, entry by entry. -/
theorem patternDecodeReadsRowMajor : Obligations.PatternDecodeReadsRowMajor := by
  refine ⟨rfl, fun s bs hs hg => ⟨_, decodeGrid bs hg.length_eq, decodeScalars bs,
    execPatternDecode_of_guard hs hg, rfl, rfl, rfl, rfl,
    fun tr st b hb => ?_,
    fun f => ⟨decodeScalars_length hg.length_eq f, fun j => decodeScalars_getElem? bs f⟩⟩⟩
  have hentry := decodeGrid_of_getElem? hg.length_eq hb
  exact ⟨congrArg StepData.onOff hentry, congrArg StepData.probabilityOnOff hentry,
    congrArg StepData.flamOnOff hentry, congrArg StepData.repeatOnOff hentry,
    (congrArg StepData.repeatCount hentry).trans (stepDecode_repeatCount b)⟩

/-- Settles O22: one case for each outcome of the guard's tests, in their order. -/
theorem patternDecodeFailsClosed : Obligations.PatternDecodeFailsClosed := by
  intro s bs hs
  rcases decodePattern_cases bs with
    ⟨hlen, hd⟩ | ⟨hlen, h0, hd⟩ | ⟨hlen, h0, h1, hd⟩ | ⟨hlen, h0, h1, -⟩
  · exact ⟨_, execPatternDecode_of_error hs hd, rfl, fun _ => rfl, fun h => absurd h hlen,
      fun h => absurd h hlen, fun h => absurd h.1 hlen, fun _ => ⟨rfl, rfl⟩⟩
  · exact ⟨_, execPatternDecode_of_error hs hd, rfl, fun h => absurd hlen h, fun _ _ => rfl,
      fun _ h => absurd h h0, fun h => absurd h.2.1 h0, fun _ => ⟨rfl, rfl⟩⟩
  · exact ⟨_, execPatternDecode_of_error hs hd, rfl, fun h => absurd hlen h,
      fun _ h => absurd h0 h, fun _ _ _ => rfl, fun h => absurd h.2.2 h1, fun _ => ⟨rfl, rfl⟩⟩
  · exact ⟨_, execPatternDecode_of_guard hs ⟨hlen, h0, h1⟩, rfl, fun h => absurd hlen h,
      fun _ h => absurd h0 h, fun _ _ h => absurd h1 h, fun _ => ⟨rfl, rfl, rfl⟩,
      fun h => absurd ⟨hlen, h0, h1⟩ h⟩

/-- Settles O23: R95's conditions place tempo's first byte and every entry of filterSteps. -/
theorem scalarLayoutIsAdmitted : Obligations.ScalarLayoutIsAdmitted := by
  refine ⟨scalarLayout_admissible, fun s bs hs hg => ⟨_, decodeScalars bs,
    execPatternDecode_of_guard hs hg, rfl, ?_, fun j => ⟨filterEntry_length hg.length_eq j,
      fun i => filterEntry_getElem? hg.length_eq j⟩⟩⟩
  obtain ⟨htempo, hwidth, -⟩ := scalarLayout_admissible
  have hfirst := decodeScalars_getElem? bs .tempo (hwidth .tempo ScalarField.tempo.mem_all)
  rwa [PerField.get, PerField.get, htempo] at hfirst

/-- Settles O24: the grid and the scalars each depend on the bytes they read alone. -/
theorem unreadPayloadCannotMatter : Obligations.UnreadPayloadCannotMatter := by
  intro s s' bs bs' hs hs' hg hg' hsteps
  refine ⟨_, _, execPatternDecode_of_guard hs hg, execPatternDecode_of_guard hs' hg', ?_,
    fun hscalars => ?_⟩
  · exact congrArg Register.full (decodeGrid_congr hg.length_eq hg'.length_eq hsteps).symm
  · exact congrArg Register.full (decodeScalars_congr hg.length_eq hg'.length_eq hscalars).symm

end Sys2Proof.Machine
end

section
/-! SUPPORT. The outcomes of an operation and of a host action: completion, a failure code, a recorded fault,
a refusal (spec/60_exceptions.md R99 to R105, R114, R115). -/

namespace Sys2Proof.Machine

/-! Operations. -/

/-- CLASSIFY reports OK or NOT_OURS and records no fault (R87, R99). -/
theorem State.afterClassify_outcome (s : State) (bs : List Byte) :
    (s.afterClassify bs).faults = s.faults ∧
      ((s.afterClassify bs).status = 0x01#8 ∨ (s.afterClassify bs).status = 0x02#8) := by
  rw [State.afterClassify]
  cases classifyBytes s.cfgMfr s.cfgProd bs with
  | some ti => exact ⟨rfl, .inl rfl⟩
  | none => exact ⟨rfl, .inr rfl⟩

/-- PATTERN_DECODE reports OK, or one of its three failure codes with the PAT registers holding no value,
and records no fault (R92, R97, R99). -/
theorem State.afterPattern_outcome (s : State) (bs : List Byte) :
    (s.afterPattern bs).faults = s.faults ∧
      ((s.afterPattern bs).status = 0x01#8 ∨
        ((s.afterPattern bs).status = 0x03#8 ∨ (s.afterPattern bs).status = 0x04#8 ∨
          (s.afterPattern bs).status = 0x05#8) ∧
        (s.afterPattern bs).patStep.value = none ∧ (s.afterPattern bs).patScalar.value = none) := by
  rw [State.afterPattern]
  rcases decodePattern_cases bs with ⟨-, hd⟩ | ⟨-, -, hd⟩ | ⟨-, -, -, hd⟩ | ⟨_, -, -, hd⟩ <;> rw [hd]
  · exact ⟨rfl, .inr ⟨.inl rfl, rfl, rfl⟩⟩
  · exact ⟨rfl, .inr ⟨.inr (.inl rfl), rfl, rfl⟩⟩
  · exact ⟨rfl, .inr ⟨.inr (.inr rfl), rfl, rfl⟩⟩
  · exact ⟨rfl, .inl rfl⟩

/-- PATTERN_DECODE changes STATUS and the PAT registers alone (R31, R105). -/
theorem State.afterPattern_frame (s : State) (bs : List Byte) :
    s.afterPattern bs =
      { s with
        status := (s.afterPattern bs).status
        patStep := (s.afterPattern bs).patStep
        patScalar := (s.afterPattern bs).patScalar } := by
  rw [State.afterPattern]
  cases decodePattern bs <;> rfl

/-- Settles O31: one case for each next state of `exec_next`; only CLASSIFY and PATTERN_DECODE complete
with another code than OK. -/
theorem operationOutcomes : Obligations.OperationOutcomes := by
  intro i s t h
  rcases exec_next h with ⟨-, bs, -, rfl⟩ | ⟨-, bs, -, rfl⟩ | ⟨-, out, bs, -, -, rfl⟩ |
    ⟨hi, bs, -, rfl⟩ | ⟨-, b, -, rfl⟩ | ⟨hi, bs, -, rfl⟩ | hf
  case inr.inr.inr.inl =>
    obtain ⟨hk, hc⟩ := s.afterClassify_outcome bs
    exact .inl ⟨hk, hc.imp_right fun hours => .inl ⟨hi, hours⟩⟩
  case inr.inr.inr.inr.inr.inl =>
    obtain ⟨hk, hc⟩ := s.afterPattern_outcome bs
    exact .inl ⟨hk, hc.imp_right fun hfail => .inr ⟨hi, hfail⟩⟩
  case inr.inr.inr.inr.inr.inr => exact .inr hf
  all_goals exact .inl ⟨rfl, .inl rfl⟩

/-- Settles O26: of the outcomes of an operation, the recorded fault needs an operand without a value. -/
theorem operationsComplete : Obligations.OperationsComplete := by
  intro i s hw
  obtain ⟨t, ht, -⟩ := exec_cases i s
  rcases operationOutcomes i s t ht with ⟨hk, hc⟩ | ⟨r, hr, hu, -⟩
  · refine ⟨t, ht, hk, ?_⟩
    rcases hc with h | ⟨-, h⟩ | ⟨-, h | h | h, -⟩ <;> simp [h]
  · exact absurd hu (hw r hr)

/-- An operation that records no fault and leaves a failure code is PATTERN_DECODE, and no PAT register
holds a value after it (R100). -/
theorem exec_failure {i : Instr} {s t : State} (h : exec i s = .next t) (hk : t.faults = s.faults)
    (hc : t.status = 0x03#8 ∨ t.status = 0x04#8 ∨ t.status = 0x05#8) :
    i = .patternDecode ∧ t.patStep.value = none ∧ t.patScalar.value = none := by
  rcases operationOutcomes i s t h with ⟨-, hok | ⟨-, hours⟩ | ⟨hi, -, hv⟩⟩ | hf
  · simp [hok] at hc
  · simp [hours] at hc
  · exact ⟨hi, hv⟩
  · exact absurd hk hf.faults_ne

/-- Settles O32: only PATTERN_DECODE fails, and it writes nothing but STATUS and the PAT registers. -/
theorem failuresArePrecise : Obligations.FailuresArePrecise := by
  intro i s t h hk hc
  obtain ⟨rfl, hv⟩ := exec_failure h hk hc
  refine ⟨?_, hv⟩
  rcases execPatternDecode_cases s with ⟨bs, -, he⟩ | ⟨t', he, hf⟩
  · cases h.symm.trans he
    exact s.afterPattern_frame bs
  · cases h.symm.trans he
    exact absurd hk hf.faults_ne

/-! Commands. -/

/-- The word of every operation is one of the seven of R55. -/
theorem encode_mem_words (i : Instr) :
    encode i ∈ [0x01#8, 0x02#8, 0x11#8, 0x12#8, 0x13#8, 0x21#8, 0x22#8] := by
  cases i <;> decide

/-- A write of CMD whose code selects no operation reports BAD_OP and does nothing else (R101). -/
theorem runCommand_of_reserved {c : Byte} (h : ∀ i, decode c ≠ .ok i) (s : State) :
    runCommand c s = .next (s.complete .badOp) := by
  rw [runCommand]
  cases hc : decode c with
  | ok i => exact absurd hc (h i)
  | error e => rfl

/-- Settles O4: a word that decodes to an operation is that operation's, so one of the seven. -/
theorem reservedCommandReportsBadOp : Obligations.ReservedCommandReportsBadOp := by
  intro s c rest hp hc
  rw [step_of_pending hp]
  refine runCommand_of_reserved (fun i hi => hc ?_) _
  exact (decodeAndEncodeAgree c i).1 hi ▸ encode_mem_words i

/-- Every write of CMD answers a next state: an operation's, or that of a reserved command (R28, R99). -/
theorem runCommand_answers (c : Byte) (s : State) : ∃ t, runCommand c s = .next t := by
  by_cases h : ∃ i, decode c = .ok i
  · obtain ⟨i, hi⟩ := h
    obtain ⟨t, ht, -⟩ := exec_cases i s
    exact ⟨t, (runCommand_of_decode hi s).trans ht⟩
  · exact ⟨_, runCommand_of_reserved (fun i hi => h ⟨i, hi⟩) s⟩

/-! Faults: none ends a step (R102). -/

theorem loadInput_not_fault (bs : List Byte) (s : State) (f : Fault) : loadInput bs s ≠ .fault f := by
  rw [loadInput]
  split <;> nofun

theorem setOperand_not_fault (r : SetReg) (v : Nat) (s : State) (f : Fault) :
    setOperand r v s ≠ .fault f := by
  rw [setOperand]
  split <;> nofun

/-- No host action ends in a fault: a reading that faults is recorded (R99, R102). -/
theorem performAction_not_fault (a : HostAction) (s : State) (f : Fault) :
    performAction a s ≠ .fault f := by
  intro h
  cases a with
  | load bs => exact loadInput_not_fault bs s f h
  | move =>
    obtain ⟨bs, -, h⟩ := goOn_fault h
    exact loadInput_not_fault bs s f h
  | loadSlice a b =>
    obtain ⟨bs, -, h⟩ := goOn_fault h
    exact loadInput_not_fault (slice bs a b) s f h
  | set r v => exact setOperand_not_fault r v s f h
  | command c =>
    obtain ⟨t, ht⟩ := runCommand_answers c s
    cases ht.symm.trans h
  | read v =>
    obtain ⟨x, -, h⟩ := goOn_fault h
    cases h
  | reset => cases h

/-- Settles O28: no action clears the record, and what faults is recorded, so that the step goes on. -/
theorem stepKeepsRecordedFaults : Obligations.StepKeepsRecordedFaults := by
  refine ⟨fun s t h => step_keepsFaultRecord h, fun s f h => ?_⟩
  cases hp : s.pending with
  | nil => cases (step_of_idle hp).symm.trans h
  | cons a rest => exact performAction_not_fault a _ f ((step_of_pending hp).symm.trans h)

/-! Refusals (R115). -/

/-- No operation is refused (R115). -/
theorem exec_not_refused (i : Instr) (s : State) (q : Refusal) : exec i s ≠ .refused q := by
  obtain ⟨t, ht, -⟩ := exec_cases i s
  rw [ht]
  exact nofun

/-- What a host action is refused for: a load too long, or a `SET` too wide (R115). -/
theorem performAction_refused {a : HostAction} {s : State} {q : Refusal}
    (h : performAction a s = .refused q) :
    (∃ bs, a = .load bs ∧ Config.maxIn < bs.length ∧ q = .loadTooLong bs.length) ∨
    (∃ n, a = .move ∧ s.outLen.value = some n ∧ Config.maxIn < n ∧ q = .loadTooLong n) ∨
    (∃ i j n, a = .loadSlice i j ∧ s.outLen.value = some n ∧ Config.maxIn < min j n - i ∧
      q = .loadTooLong (min j n - i)) ∨
    ∃ r v, a = .set r v ∧ 2 ^ r.width ≤ v ∧ q = .operandTooWide r v := by
  cases a with
  | load bs => exact .inl ⟨bs, rfl, loadInput_refused h⟩
  | move =>
    obtain ⟨n, hn⟩ := moveOutput_refused h
    exact .inr (.inl ⟨n, rfl, hn⟩)
  | loadSlice i j =>
    obtain ⟨n, hn⟩ := loadOutputSlice_refused h
    exact .inr (.inr (.inl ⟨i, j, n, rfl, hn⟩))
  | set r v => exact .inr (.inr (.inr ⟨r, v, rfl, setOperand_refused h⟩))
  | command c =>
    obtain ⟨t, ht⟩ := runCommand_answers c s
    cases ht.symm.trans h
  | read v =>
    obtain ⟨x, -, h⟩ := goOn_refused h
    cases h
  | reset => cases h

/-- Settles O43: a step is refused as the host's next action is; the block that waits is not. -/
theorem refusalsAreTheHosts : Obligations.RefusalsAreTheHosts := by
  refine ⟨fun s q h => ?_, exec_not_refused⟩
  cases hp : s.pending with
  | nil => cases (step_of_idle hp).symm.trans h
  | cons a rest =>
    rw [step_of_pending hp] at h
    exact ⟨a, rest, rfl, performAction_refused (s := s.dequeue rest) h⟩

/-! Loads of IN (R114). -/

/-- `LOAD IN` of the state with the action taken off: within `P_MAX_IN` bytes IN holds the sequence and
nothing else changes, and a longer sequence is refused (R114, R115). -/
theorem loadInput_dequeue (bs : List Byte) (s : State) (rest : List HostAction) :
    (bs.length ≤ Config.maxIn →
      ∃ t, loadInput bs (s.dequeue rest) = .next t ∧ t.InHolds bs ∧
        t = { s with pending := rest, inBuf := t.inBuf, inLen := t.inLen }) ∧
    (Config.maxIn < bs.length →
      loadInput bs (s.dequeue rest) = .refused (.loadTooLong bs.length)) :=
  ⟨fun h => ⟨_, if_pos h, State.putInput_inHolds _ bs, rfl⟩, fun h => loadInput_of_long h _⟩

/-- Settles O38: the step is the load. -/
theorem loadFillsInput : Obligations.LoadFillsInput := by
  intro s bs rest hp
  rw [step_of_pending hp]
  exact loadInput_dequeue bs s rest

/-- A sequence of the length of a slice and with its elements is the slice (R16). -/
theorem slice_eq_of_getElem? {α : Type} {bs cs : List α} {a b : Nat}
    (hlen : cs.length = min b bs.length - a) (hget : ∀ k, k < cs.length → cs[k]? = bs[a + k]?) :
    slice bs a b = cs := by
  refine List.ext_getElem? fun k => ?_
  by_cases hk : k < cs.length
  · rw [slice_getElem?, if_pos (by omega), hget k hk]
  · rw [List.getElem?_eq_none (by rw [slice_length]; omega), List.getElem?_eq_none (by omega)]

/-- A host read of OUT where OUT holds no value is the fault naming OUT (R102). -/
theorem State.outputBytes_of_noOut {s : State} (h : s.outBuf.value = none) :
    s.outputBytes = .error (.unwrittenOperand (.result .out)) := by
  rw [State.outputBytes, h, valueOf_none, error_bind]

/-- A host read of OUT where OUT_LEN alone holds no value is the fault naming OUT_LEN (R102). -/
theorem State.outputBytes_of_noLen {s : State} (hb : s.outBuf.value ≠ none)
    (h : s.outLen.value = none) :
    s.outputBytes = .error (.unwrittenOperand (.result .outLen)) := by
  obtain ⟨m, hm⟩ := Option.ne_none_iff_exists'.1 hb
  rw [State.outputBytes, hm, h, valueOf_some, ok_bind, valueOf_none, error_bind]

/-- A host read of OUT where OUT or OUT_LEN holds no value is the fault of one of them (R102). -/
theorem State.outputBytes_of_noValue {s : State} (h : s.outBuf.value = none ∨ s.outLen.value = none) :
    ∃ r ∈ [ResultReg.out, .outLen], s.outputBytes = .error (.unwrittenOperand (.result r)) := by
  by_cases hb : s.outBuf.value = none
  · exact ⟨.out, by decide, s.outputBytes_of_noOut hb⟩
  · exact ⟨.outLen, by decide, s.outputBytes_of_noLen hb (h.resolve_left hb)⟩

/-- MOVE records the fault of reading OUT (R102, R114). -/
theorem moveOutput_of_error {s : State} {f : Fault} (h : s.outputBytes = .error f) :
    moveOutput s = .next (s.recordFault f) := by
  rw [moveOutput, h, goOn_error]

/-- The slice LOAD records the fault of reading OUT (R102, R114). -/
theorem loadOutputSlice_of_error {s : State} {f : Fault} (h : s.outputBytes = .error f) (a b : Nat) :
    loadOutputSlice a b s = .next (s.recordFault f) := by
  rw [loadOutputSlice, h, goOn_error]

/-- Settles O40: MOVE and the slice LOAD are the load of what OUT holds, or record the fault of reading
it. -/
theorem moveCopiesOutput : Obligations.MoveCopiesOutput := by
  refine ⟨fun s bs rest hp ho => ?_, fun s bs cs a b rest hp ho hlen hget => ?_,
    fun s a b rest hp hn => ?_⟩
  · have hstep : step s = loadInput bs (s.dequeue rest) :=
      (step_of_pending hp).trans (moveOutput_of_holds (s := s.dequeue rest) ho)
    rw [hstep]
    exact loadInput_dequeue bs s rest
  · have hstep : step s = loadInput (slice bs a b) (s.dequeue rest) :=
      (step_of_pending hp).trans (loadOutputSlice_of_holds (s := s.dequeue rest) ho a b)
    rw [hstep, slice_eq_of_getElem? hlen hget]
    exact loadInput_dequeue cs s rest
  · obtain ⟨r, hr, he⟩ := State.outputBytes_of_noValue (s := s.dequeue rest) hn
    refine ⟨r, hr, ?_⟩
    rcases hp with hp | hp <;> rw [step_of_pending hp]
    · exact moveOutput_of_error he
    · exact loadOutputSlice_of_error he a b

/-! Host reads (R102, R114). -/

theorem held_of_value {α : Type} {v : Register α} {a : α} (h : v.value = some a) (r : ResultReg)
    (k : α → HostValue) : held r v k = .ok (k a) := by
  rw [held, h, valueOf_some, ok_map]

theorem held_of_noValue {α : Type} {v : Register α} (h : v.value = none) (r : ResultReg)
    (k : α → HostValue) : held r v k = .error (.unwrittenOperand (.result r)) := by
  rw [held, h, valueOf_none, error_map]

/-- A host read of what holds a value returns it (R114). -/
theorem State.Shows.readView_eq {s : State} {v : ReadView} {x : HostValue} (h : s.Shows v x) :
    readView v s = .ok x := by
  rcases v with r | f | j
  case reg =>
    cases r with
    | status => exact congrArg Except.ok h.symm
    | out =>
      obtain ⟨bs, hb, rfl⟩ := h
      rw [readView, readResult, State.outputBytes_of_holds hb, ok_map]
    | outLen | rtype | rid | stOn | stProb | stFlam | stRep | stRcnt | patStep | patScalar =>
      obtain ⟨a, ha, rfl⟩ := h
      exact held_of_value ha _ _
  all_goals
    obtain ⟨a, ha, rfl⟩ := h
    exact held_of_value ha _ _

/-- A host read of what holds no value is the fault of the register it lacks (R102). -/
theorem State.Lacks.readView_eq {s : State} {v : ReadView} {r : ResultReg} (h : s.Lacks v r) :
    readView v s = .error (.unwrittenOperand (.result r)) := by
  rcases v with r' | f | j
  case reg =>
    cases r' with
    | status => exact h.elim
    | out =>
      rcases h with ⟨hb, rfl⟩ | ⟨hb, hn, rfl⟩
      · rw [readView, readResult, s.outputBytes_of_noOut hb, error_map]
      · rw [readView, readResult, s.outputBytes_of_noLen hb hn, error_map]
    | outLen | rtype | rid | stOn | stProb | stFlam | stRep | stRcnt | patStep | patScalar =>
      obtain ⟨hn, rfl⟩ := h
      exact held_of_noValue hn _ _
  all_goals
    obtain ⟨hn, rfl⟩ := h
    exact held_of_noValue hn _ _

/-- A step whose action is a read is that read of the state before it, its value returned or its fault
recorded (R114). -/
theorem step_of_read {s : State} {v : ReadView} {rest : List HostAction}
    (h : s.pending = .read v :: rest) :
    step s = goOn (s.dequeue rest) (readView v s) fun x => .next ((s.dequeue rest).record x) :=
  step_of_pending h

/-- Settles O41: the view reads as what it shows, or as the fault of the register it lacks. -/
theorem hostReadsReturnOrFault : Obligations.HostReadsReturnOrFault := by
  intro s v rest hp
  refine ⟨fun x hx => ?_, fun r hr => ?_⟩
  · rw [step_of_read hp, hx.readView_eq, goOn_ok]
    rfl
  · rw [step_of_read hp, hr.readView_eq, goOn_error]
    rfl

end Sys2Proof.Machine
end

section
/-! SUPPORT. Reset and the hazards of 70_reset_and_hazards.md: no operand holds a value after RESET, and the
escaped form of a pattern is no pattern (R117, R118, R126). -/

namespace Sys2Proof.Machine

/-- Settles O5: the block waits where the host's list is empty. -/
theorem blockWaitsForHost : Obligations.BlockWaitsForHost := fun _ => step_of_idle

/-- Settles O50: STATUS is NONE, the buffers and the PAT registers hold no value, and the other registers
are at the values the invariants name. -/
theorem resetMeetsInvariants : Obligations.ResetMeetsInvariants :=
  ⟨⟨.none, State.reset_status⟩, ⟨trivial, trivial⟩, ⟨nofun, nofun⟩, ⟨rfl, rfl, rfl⟩, ⟨rfl, rfl⟩,
    State.patternWhole_of_noValue rfl rfl⟩

/-- PATTERN_DECODE's guard rejects every other length than 889 before it looks at a byte (R92). -/
theorem decodePattern_of_length_ne {bs : List Byte} (h : bs.length ≠ 889) :
    decodePattern bs = .error .patBadLength := dif_neg h

/-- The escaped form of a pattern has 1016 bytes: 889, and a mask byte for each of 127 groups (R71, R126). -/
theorem escape_length_of_pattern {bs : List Byte} (h : bs.length = 889) :
    (escape bs).length = 1016 := by
  rw [escape_length, h]
  rfl

/-- Settles O25: ESCAPE's output is 127 bytes longer than the one length the guard admits. -/
theorem escapedPatternIsRejected : Obligations.EscapedPatternIsRejected := by
  intro s bs hs hlen
  have helen := escape_length_of_pattern hlen
  have hbad : decodePattern (escape bs) = .error .patBadLength :=
    decodePattern_of_length_ne (by omega)
  exact ⟨_, escape bs, execEscape_of_holds hs, s.putOutput_outHolds _, helen, fun u hu =>
    ⟨_, execPatternDecode_of_error hu hbad, rfl, rfl, rfl⟩⟩

/-- After RESET no operand of any operation holds a value (R117). -/
theorem State.hostReset_unwritten (s : State) {i : Instr} {r : Reg} (hr : r ∈ operandsRead i) :
    s.hostReset.Unwritten r := by
  cases r with
  | input => exact s.hostReset.not_inHolds_of_noValue rfl
  | operand r => cases r <;> rfl
  | result r => cases i <;> simp [operandsRead] at hr

/-- Every operation reads an operand (R55). -/
theorem exists_mem_operandsRead (i : Instr) : ∃ r, r ∈ operandsRead i :=
  List.exists_mem_of_ne_nil _ (by cases i <;> decide)

/-- Right after RESET every operation records the fault of an operand, and nothing else changes (R21,
R117). -/
theorem exec_hostReset (i : Instr) (s : State) :
    ∃ r, exec i s.hostReset = .next (s.hostReset.recordFault (.unwrittenOperand r)) := by
  obtain ⟨r, hr⟩ := exists_mem_operandsRead i
  obtain ⟨r', -, -, he⟩ := exec_of_unwritten hr (s.hostReset_unwritten hr)
  exact ⟨r', he⟩

/-- Settles O42: each register takes its value of R117, and no operation finds an operand. -/
theorem resetClearsRegisters : Obligations.ResetClearsRegisters := by
  intro s rest hp
  have hstep : step s = .next (s.dequeue rest).hostReset := step_of_pending hp
  have hfault (i : Instr) := exec_hostReset i (s.dequeue rest)
  exact ⟨_, hstep, rfl, rfl, rfl, rfl, rfl, rfl, rfl, rfl, rfl, rfl, rfl, rfl, rfl, rfl, rfl, rfl, rfl,
    rfl, rfl, rfl, rfl, rfl, rfl, rfl, rfl, rfl, rfl, hfault⟩

end Sys2Proof.Machine
end
